-- ==== Sys2Proof/Word.lean ====
section
/-! DEFINITION. The two word types of the machine: the byte of the registers and memory cells, and the
address word (spec 00_scope.md R6, R7). -/

namespace Sys2Proof

/-- u8: an 8-bit register, a memory cell, the status byte (R6, R7). -/
abbrev Byte := BitVec 8

/-- u16: an address or the program counter (R6, R7). -/
abbrev Word := BitVec 16

end Sys2Proof
end

