-- ==== Sys2Proof/Syntax.lean ====
section
/-! DEFINITION. The instructions as syntax: the 56 mnemonics (spec 30_encoding.md R66), the 12 addressing
modes (41_addressing.md R91), the operand of an instruction and the one inductive `Instr`.
A row of the opcode table is a mnemonic with a mode: here a constructor of `Instr` with the mode of its
operand (assumption 1). -/

namespace Sys2Proof

/-- The 56 mnemonics, a closed enumeration (30_encoding.md R66; 40_engine.md R77). -/
inductive Mnemonic where
  | LDA | LDX | LDY | STA | STX | STY
  | TAX | TAY | TSX | TXA | TXS | TYA | PHA | PHP | PLA | PLP
  | ADC | SBC | CMP | CPX | CPY | INC | INX | INY | DEC | DEX | DEY
  | AND | ORA | EOR | BIT | ASL | LSR | ROL | ROR
  | BPL | BMI | BVC | BVS | BCC | BCS | BNE | BEQ | JMP | JSR | RTS | RTI
  | CLC | SEC | CLI | SEI | CLV | CLD | SED | NOP | BRK
  deriving DecidableEq, Repr

/-- The 12 addressing modes (41_addressing.md R91). -/
inductive Mode where
  | noAddressing
  | immediate
  | zeroPage
  | zeroPageX
  | zeroPageY
  | relative
  | absolute
  | absoluteX
  | absoluteY
  | indirect
  | indexedIndirect
  | indirectIndexed
  deriving DecidableEq, Repr

/-- How many operand bytes follow the opcode in each mode: the formats F1, F2, F3 (30_encoding.md R59). -/
def Mode.operandBytes : Mode → Nat
  | .noAddressing => 0
  | .immediate | .zeroPage | .zeroPageX | .zeroPageY | .relative | .indexedIndirect
  | .indirectIndexed => 1
  | .absolute | .absoluteX | .absoluteY | .indirect => 2

/-- The length of an instruction of a mode, opcode included (R59; BRK has length 1, R60). -/
def Mode.length (m : Mode) : Nat := 1 + m.operandBytes

/-- An operand: an addressing mode with the operand bytes the instruction carries, assembled as
30_encoding.md R62 says. `noAddressing` carries none: it is also the accumulator form of ASL, LSR,
ROL and ROR (R69). -/
inductive Operand where
  | noAddressing
  | immediate (v : Byte)
  | zeroPage (zp : Byte)
  | zeroPageX (zp : Byte)
  | zeroPageY (zp : Byte)
  | relative (off : Byte)
  | absolute (addr : Word)
  | absoluteX (addr : Word)
  | absoluteY (addr : Word)
  | indirect (ptr : Word)
  | indexedIndirect (zp : Byte)
  | indirectIndexed (zp : Byte)
  deriving DecidableEq, Repr

/-- The mode of an operand. -/
def Operand.mode : Operand → Mode
  | .noAddressing => .noAddressing
  | .immediate _ => .immediate
  | .zeroPage _ => .zeroPage
  | .zeroPageX _ => .zeroPageX
  | .zeroPageY _ => .zeroPageY
  | .relative _ => .relative
  | .absolute _ => .absolute
  | .absoluteX _ => .absoluteX
  | .absoluteY _ => .absoluteY
  | .indirect _ => .indirect
  | .indexedIndirect _ => .indexedIndirect
  | .indirectIndexed _ => .indirectIndexed

/-- The instructions. The eight branches carry their offset byte, JSR its target, the implied
instructions nothing; every other instruction carries an `Operand`, of which `Instr.wellFormed` admits
the modes the instruction's rule lists. -/
inductive Instr where
  /-- LDA, load accumulator (R109). -/
  | lda (o : Operand)
  /-- LDX, load X (R110). -/
  | ldx (o : Operand)
  /-- LDY, load Y (R111). -/
  | ldy (o : Operand)
  /-- STA, store accumulator (R112). -/
  | sta (o : Operand)
  /-- STX, store X (R113). -/
  | stx (o : Operand)
  /-- STY, store Y (R114). -/
  | sty (o : Operand)
  /-- TAX, transfer A to X (R115). -/
  | tax
  /-- TAY, transfer A to Y (R116). -/
  | tay
  /-- TSX, transfer S to X (R117). -/
  | tsx
  /-- TXA, transfer X to A (R118). -/
  | txa
  /-- TXS, transfer X to S (R119). -/
  | txs
  /-- TYA, transfer Y to A (R120). -/
  | tya
  /-- PHA, push A (R121). -/
  | pha
  /-- PHP, push P (R122). -/
  | php
  /-- PLA, pull A (R123). -/
  | pla
  /-- PLP, pull P (R124). -/
  | plp
  /-- ADC, add with carry (R127). -/
  | adc (o : Operand)
  /-- SBC, subtract with borrow (R128). -/
  | sbc (o : Operand)
  /-- CMP, compare with A (R130). -/
  | cmp (o : Operand)
  /-- CPX, compare with X (R131). -/
  | cpx (o : Operand)
  /-- CPY, compare with Y (R132). -/
  | cpy (o : Operand)
  /-- INC, increment memory (read-modify-write) (R133). -/
  | inc (o : Operand)
  /-- INX, increment X (R134). -/
  | inx
  /-- INY, increment Y (R135). -/
  | iny
  /-- DEC, decrement memory (read-modify-write) (R136). -/
  | dec (o : Operand)
  /-- DEX, decrement X (R137). -/
  | dex
  /-- DEY, decrement Y (R138). -/
  | dey
  /-- AND, bitwise AND with A (R139). -/
  | and (o : Operand)
  /-- ORA, bitwise OR with A (R140). -/
  | ora (o : Operand)
  /-- EOR, bitwise exclusive OR with A (R141). -/
  | eor (o : Operand)
  /-- BIT, bit test (R142). -/
  | bit (o : Operand)
  /-- ASL, arithmetic shift left (R143). -/
  | asl (o : Operand)
  /-- LSR, logical shift right (R144). -/
  | lsr (o : Operand)
  /-- ROL, rotate left through carry (R145). -/
  | rol (o : Operand)
  /-- ROR, rotate right through carry (R146). -/
  | ror (o : Operand)
  /-- BPL, branch if plus (R148). -/
  | bpl (off : Byte)
  /-- BMI, branch if minus (R149). -/
  | bmi (off : Byte)
  /-- BVC, branch if overflow clear (R150). -/
  | bvc (off : Byte)
  /-- BVS, branch if overflow set (R151). -/
  | bvs (off : Byte)
  /-- BCC, branch if carry clear (R152). -/
  | bcc (off : Byte)
  /-- BCS, branch if carry set (R153). -/
  | bcs (off : Byte)
  /-- BNE, branch if not equal (R154). -/
  | bne (off : Byte)
  /-- BEQ, branch if equal (R155). -/
  | beq (off : Byte)
  /-- JMP, jump (R156). -/
  | jmp (o : Operand)
  /-- JSR, jump to subroutine (R157). -/
  | jsr (target : Word)
  /-- RTS, return from subroutine (R158). -/
  | rts
  /-- RTI, return from interrupt (R159). -/
  | rti
  /-- CLC, clear carry (R160). -/
  | clc
  /-- SEC, set carry (R161). -/
  | sec
  /-- CLI, clear interrupt disable (R162). -/
  | cli
  /-- SEI, set interrupt disable (R163). -/
  | sei
  /-- CLV, clear overflow (R164). -/
  | clv
  /-- CLD, clear decimal (R165). -/
  | cld
  /-- SED, set decimal (R166). -/
  | sed
  /-- NOP, no operation (R167). -/
  | nop
  /-- BRK, break: halt (R168). -/
  | brk
  deriving DecidableEq, Repr

/-- The mnemonic of an instruction, by which the engine dispatches (40_engine.md R77). -/
def Instr.mnemonic : Instr → Mnemonic
  | .lda _ => .LDA
  | .ldx _ => .LDX
  | .ldy _ => .LDY
  | .sta _ => .STA
  | .stx _ => .STX
  | .sty _ => .STY
  | .tax => .TAX
  | .tay => .TAY
  | .tsx => .TSX
  | .txa => .TXA
  | .txs => .TXS
  | .tya => .TYA
  | .pha => .PHA
  | .php => .PHP
  | .pla => .PLA
  | .plp => .PLP
  | .adc _ => .ADC
  | .sbc _ => .SBC
  | .cmp _ => .CMP
  | .cpx _ => .CPX
  | .cpy _ => .CPY
  | .inc _ => .INC
  | .inx => .INX
  | .iny => .INY
  | .dec _ => .DEC
  | .dex => .DEX
  | .dey => .DEY
  | .and _ => .AND
  | .ora _ => .ORA
  | .eor _ => .EOR
  | .bit _ => .BIT
  | .asl _ => .ASL
  | .lsr _ => .LSR
  | .rol _ => .ROL
  | .ror _ => .ROR
  | .bpl _ => .BPL
  | .bmi _ => .BMI
  | .bvc _ => .BVC
  | .bvs _ => .BVS
  | .bcc _ => .BCC
  | .bcs _ => .BCS
  | .bne _ => .BNE
  | .beq _ => .BEQ
  | .jmp _ => .JMP
  | .jsr _ => .JSR
  | .rts => .RTS
  | .rti => .RTI
  | .clc => .CLC
  | .sec => .SEC
  | .cli => .CLI
  | .sei => .SEI
  | .clv => .CLV
  | .cld => .CLD
  | .sed => .SED
  | .nop => .NOP
  | .brk => .BRK

/-- The operand of an instruction: a branch offset is a Relative operand, the target of JSR an
Absolute one, and an implied instruction has mode NoAddressing. -/
def Instr.operand : Instr → Operand
  | .lda o | .ldx o | .ldy o | .sta o | .stx o | .sty o
  | .adc o | .sbc o | .cmp o | .cpx o | .cpy o | .inc o
  | .dec o | .and o | .ora o | .eor o | .bit o | .asl o
  | .lsr o | .rol o | .ror o | .jmp o => o
  | .bpl off | .bmi off | .bvc off | .bvs off | .bcc off | .bcs off | .bne off | .beq off => .relative off
  | .jsr t => .absolute t
  | .tax | .tay | .tsx | .txa | .txs | .tya | .pha | .php | .pla
  | .plp | .inx | .iny | .dex | .dey | .rts | .rti | .clc | .sec
  | .cli | .sei | .clv | .cld | .sed | .nop | .brk => .noAddressing

/-- The addressing mode of an instruction. -/
def Instr.mode (i : Instr) : Mode := i.operand.mode

/-- `length_bytes` (30_encoding.md R59, R60, R68). -/
def Instr.length (i : Instr) : Nat := i.mode.length

end Sys2Proof
end

