-- ==== Sys2Proof/Config.lean ====
section
/-! DEFINITION. The OPEN parameters of the hardware (spec 00_scope.md R6) other than `INIT_MEM` and `fuel`,
which are arguments of `State.construct` and `run`. The machine carries them in `State.config`
(assumption 2), so that a claim about every state is a claim about every parameter value. -/

namespace Sys2Proof

/-- `UNIMPL_POLICY` (R6; 40_engine.md R83). -/
inductive UnimplPolicy where
  | permissiveSkip
  | strictFail
  deriving DecidableEq, Repr

/-- `DECIMAL_ARITH` (R6; 44_arithmetic.md R126). -/
inductive DecimalArith where
  | binary
  | refuse
  deriving DecidableEq, Repr

/-- The OPEN parameters of R6. -/
structure Config where
  /-- `UNIMPLEMENTED`: the mnemonics treated as recognized but unimplemented (R83); only membership counts -/
  unimplemented : List Mnemonic
  /-- `UNIMPL_POLICY` (R83) -/
  unimplPolicy : UnimplPolicy
  /-- `JMP_IND_PAGE_WRAP` (41_addressing.md R101) -/
  jmpIndPageWrap : Bool
  /-- `DECIMAL_ARITH` (44_arithmetic.md R126) -/
  decimalArith : DecimalArith
  deriving DecidableEq, Repr

/-- The defaults R6 gives. -/
def Config.default : Config :=
  { unimplemented := [], unimplPolicy := .permissiveSkip, jmpIndPageWrap := false,
    decimalArith := .binary }

end Sys2Proof
end

