-- ==== Sys2Proof/Machine/Bytes.lean ====
section
/-! DEFINITION. The bit-field, extension and byte-order helpers of the notation (spec 00_scope.md R7). -/

namespace Sys2Proof.Machine

/-- `lo(w) = w[7:0]` (R7). -/
def lo (w : Word) : Byte := w.setWidth 8

/-- `hi(w) = w[15:8]` (R7). -/
def hi (w : Word) : Byte := (w >>> 8).setWidth 8

/-- `(h, l)`: the word `h * 256 + l` (R7). -/
def word (h l : Byte) : Word := h ++ l

/-- `zext_16(b)`: the byte read as a word of the same value (R7). -/
def zext16 (b : Byte) : Word := b.setWidth 16

/-- `sext_16(b)`: the byte read as a two's-complement number, as a word (R7). -/
def sext16 (b : Byte) : Word := b.signExtend 16

end Sys2Proof.Machine
end

