-- ==== Sys2Proof/Machine/Memory.lean ====
section
/-! DEFINITION. The 65,536-byte memory and its accessors (spec 10_state.md R29; 20_memory.md R37 to R45).
A memory lists the bytes that differ from what an unlisted address reads as, at rising addresses; any
contents of the 65,536 cells has exactly one such list. -/

namespace Sys2Proof.Machine

/-- A memory: (address, byte) pairs in the canonical form `Memory.wf`. -/
abbrev Memory := List Host.Cell

/-- What an unlisted address reads as. The spec gives memory no contents at construction
(`INIT_MEM`, R34). DESIGN CHOICE, unsafe (assumption 3). -/
def Memory.unlisted : Byte := 0x00

/-- The byte a list of cells holds at an address. -/
def Memory.lookup : Memory → Nat → Byte
  | [], _ => Memory.unlisted
  | (k, v) :: rest, a => if a = k then v else Memory.lookup rest a

/-- Put a cell before a list, unless it holds what an unlisted address reads as. -/
def Memory.cons (a : Nat) (v : Byte) (rest : Memory) : Memory :=
  if v = Memory.unlisted then rest else (a, v) :: rest

/-- Store a byte at an address, keeping the canonical form. -/
def Memory.store : Memory → Nat → Byte → Memory
  | [], a, v => Memory.cons a v []
  | (k, w) :: rest, a, v =>
    if a < k then Memory.cons a v ((k, w) :: rest)
    else if a = k then Memory.cons a v rest
    else (k, w) :: Memory.store rest a v

/-- The canonical form from address `low` on. -/
def Memory.wfFrom (low : Nat) : Memory → Bool
  | [] => true
  | (k, v) :: rest =>
    decide (low ≤ k) && decide (k < 65536) && decide (v ≠ Memory.unlisted) &&
      Memory.wfFrom (k + 1) rest

/-- The canonical form: addresses strictly rising within the 64 KiB, and no cell that holds what an
unlisted address reads as. -/
def Memory.wf (m : Memory) : Bool := Memory.wfFrom 0 m

/-- `read_byte(addr)`, `MemRead(addr, 1)` (R41). -/
def Memory.readByte (m : Memory) (a : Word) : Byte := Memory.lookup m a.toNat

/-- `write_byte(addr, value)`, `MemWrite(addr, 1, value)` (R42). -/
def Memory.writeByte (m : Memory) (a : Word) (v : Byte) : Memory := Memory.store m a.toNat v

/-- `read_u16(addr)`, `MemRead(addr, 2)`: little-endian, the high byte at `addr +16 1` (R43, R45). -/
def Memory.readU16 (m : Memory) (a : Word) : Word := word (m.readByte (a + 1)) (m.readByte a)

/-- `write_u16(addr, value)`, `MemWrite(addr, 2, value)` (R44, R45). -/
def Memory.writeU16 (m : Memory) (a : Word) (v : Word) : Memory :=
  (m.writeByte a (lo v)).writeByte (a + 1) (hi v)

/-- Store a sequence of bytes at consecutive addresses from `a` on (the copy of R52). -/
def Memory.writeBytes (m : Memory) (a : Word) : List Byte → Memory
  | [] => m
  | b :: rest => Memory.writeBytes (m.writeByte a b) (a + 1) rest

end Sys2Proof.Machine
end

