-- ==== Sys2Proof/Machine/State.lean ====
section
/-! DEFINITION. The state of the machine (spec 10_state.md R12), the reasons a step can stop, and the state
after reset. -/

namespace Sys2Proof.Machine

/-- Why a run has halted (10_state.md R33; 60_exceptions.md R170). -/
inductive HaltReason where
  /-- `Brk(addr)`: BRK was executed at addr, the normal end of a run (R168, R171) -/
  | brk (addr : Word)
  /-- `DecodeError(opcode, addr)`: the byte at addr is absent from the opcode table (R82) -/
  | decodeError (op : Byte) (addr : Word)
  /-- `Unimplemented(mnemonic, addr)`: under `strict_fail` (R83) -/
  | unimplemented (m : Mnemonic) (addr : Word)
  /-- `ResolverMisuse(mode, addr)`: a handler was given a mode its rule does not list (R84) -/
  | resolverMisuse (mode : Mode) (addr : Word)
  deriving DecidableEq, Repr

/-- The run state (10_state.md R33). -/
inductive RunState where
  | unreset
  | running
  | halted (reason : HaltReason)
  deriving DecidableEq, Repr

/-- A record of the diagnostics log (10_state.md R32). -/
inductive Diagnostic where
  | unimplementedMnemonic (m : Mnemonic) (addr : Word)
  deriving DecidableEq, Repr

/-- The state (10_state.md R12), and the parameters it carries (assumption 2). -/
structure State where
  /-- A, the accumulator (R13) -/
  a : Byte
  /-- X (R14) -/
  x : Byte
  /-- Y (R15) -/
  y : Byte
  /-- S, the stack pointer (R16) -/
  sp : Byte
  /-- PC, the program counter (R17) -/
  pc : Word
  /-- P, the status register (R20, R21) -/
  p : Byte
  /-- the memory (R29) -/
  mem : Memory
  /-- the run state (R33) -/
  runState : RunState
  /-- the diagnostics log, oldest record first (R32) -/
  diagnostics : List Diagnostic
  /-- the OPEN parameters of 00_scope.md R6, read only -/
  config : Config
  deriving DecidableEq, Repr

/-- Why there is no step. The state is unchanged (40_engine.md R73). -/
inductive Fault where
  /-- `NotReset`: raised by `step` in the run state Unreset (R73). Safe: nothing can be proved of a step
  that is not taken. -/
  | notReset
  /-- `AlreadyHalted`: raised by `step` in the run state Halted, which is terminal (R73). Safe: the
  spec takes no step here. -/
  | alreadyHalted (reason : HaltReason)
  deriving DecidableEq, Repr

/-- Why a step is refused. -/
inductive Refusal where
  /-- an instruction without a meaning in the model, raised by `exec`'s arm; no arm raises it. Safe. -/
  | notModelled (mnemonic : String)
  /-- `Refused(DecimalMode, addr)`: raised by ADC and SBC with D = 1 when `DECIMAL_ARITH` is `refuse`
  (44_arithmetic.md R126); the state is unchanged. Safe. -/
  | decimalMode (addr : Word)
  deriving DecidableEq, Repr

/-- The state right after reset of a machine constructed with the default parameters and with a memory
that lists nothing: every register as 10_state.md R35 says, PC the word at the reset vector
(assumptions 3 and 4). -/
def State.reset : State :=
  { a := 0x00, x := 0x00, y := 0x00, sp := 0xFD, pc := Memory.readU16 [] 0xFFFC, p := 0x00,
    mem := [], runState := .running, diagnostics := [], config := Config.default }

end Sys2Proof.Machine
end

