-- ==== Sys2Proof/Machine/Ops.lean ====
section
/-! DEFINITION. The named operations over registers, memory, stack, program counter and run state. -/

namespace Sys2Proof.Machine

/-- What the meaning of an instruction answers. -/
abbrev Result := Host.Outcome State Fault Refusal

/-! ## One field at a time -/

/-- `A <- v` (R13). -/
def State.setA (v : Byte) (s : State) : State := { s with a := v }

/-- `X <- v` (R14). -/
def State.setX (v : Byte) (s : State) : State := { s with x := v }

/-- `Y <- v` (R15). -/
def State.setY (v : Byte) (s : State) : State := { s with y := v }

/-- `S <- v` (R16). -/
def State.setSp (v : Byte) (s : State) : State := { s with sp := v }

/-- Write PC (R17). -/
def State.setPc (v : Word) (s : State) : State := { s with pc := v }

/-- `P <- v`, the whole byte (R20). -/
def State.setP (v : Byte) (s : State) : State := { s with p := v }

/-- Replace the memory (R29). -/
def State.setMem (m : Memory) (s : State) : State := { s with mem := m }

/-- Write the run state (R33). -/
def State.setRunState (r : RunState) (s : State) : State := { s with runState := r }

/-- `emit Diagnostic(d)`: append to the log, nothing else (00_scope.md R10; 10_state.md R32). -/
def State.emit (d : Diagnostic) (s : State) : State := { s with diagnostics := s.diagnostics ++ [d] }

/-! ## Memory -/

/-- `MemRead(addr, 1)` (20_memory.md R41). -/
def State.readByte (s : State) (a : Word) : Byte := s.mem.readByte a

/-- `MemRead(addr, 2)` (20_memory.md R43). -/
def State.readU16 (s : State) (a : Word) : Word := s.mem.readU16 a

/-- `MemWrite(addr, 1, v)` (20_memory.md R42). -/
def State.writeByte (a : Word) (v : Byte) (s : State) : State := s.setMem (s.mem.writeByte a v)

/-! ## The stack -/

/-- The address of the stack byte a stack pointer designates: `0x0100 + S` (10_state.md R16). -/
def stackAddr (sp : Byte) : Word := 0x0100 + zext16 sp

/-- `Push(v)`: store at `0x0100 + S`, then decrement S modulo 256 (41_addressing.md R105). -/
def push (v : Byte) (s : State) : State := (s.writeByte (stackAddr s.sp) v).setSp (s.sp - 1)

/-- The byte `Pull()` returns: the one S designates after its increment (41_addressing.md R106). -/
def pulled (s : State) : Byte := s.readByte (stackAddr (s.sp + 1))

/-- What `Pull()` does to the state: increment S modulo 256, erasing nothing (41_addressing.md R106). -/
def dropPulled (s : State) : State := s.setSp (s.sp + 1)

/-! ## The program counter
On entry to a handler PC holds the opcode address plus 1 (40_engine.md R74). -/

/-- The opcode's address, seen from a handler (R74). -/
def opcodeAddr (s : State) : Word := s.pc - 1

/-- `fetch8`'s effect on PC (40_engine.md R75). -/
def fetched (s : State) : State := s.setPc (s.pc + 1)

/-- The engine's operand skip: `PC <- PC +16 (length_bytes - 1)` (40_engine.md R78). -/
def skipOperands (mode : Mode) (s : State) : State := s.setPc (s.pc + BitVec.ofNat 16 mode.operandBytes)

/-- The end of a handler that does not redirect: the engine adds the operand skip (R74, R78). -/
def complete (mode : Mode) (s : State) : Result := .next (skipOperands mode s)

/-- `PC <- target`: a redirect, which suppresses the operand skip whatever the target (R79). -/
def redirect (target : Word) (s : State) : Result := .next (s.setPc target)

/-! ## Halting
The machine has no trap: an exceptional event halts the run (60_exceptions.md R169, R175). -/

/-- `raise Halt(reason)`: the run state becomes Halted; nothing is saved or pushed, no vector is read and
PC stays where the fetch left it (00_scope.md R10; 60_exceptions.md R175). -/
def raiseHalt (reason : HaltReason) (s : State) : State := s.setRunState (.halted reason)

/-- The resolver misuse of 40_engine.md R84, raised by a handler. -/
def misuse (mode : Mode) (s : State) : Result :=
  .next (raiseHalt (.resolverMisuse mode (opcodeAddr s)) s)

/-! ## The status byte on the stack -/

/-- The byte PHP pushes: P with bits 4 and 5 set (43_transfer_stack.md R122). -/
def pushedStatus (p : Byte) : Byte := p ||| 0x30

/-- The status PLP and RTI write: bits 7, 6, 3, 2, 1, 0 of the pulled byte, bits 5 and 4 kept
(43_transfer_stack.md R124; 46_control_transfer.md R159). -/
def restoredStatus (v p : Byte) : Byte := (v &&& 0xCF) ||| (p &&& 0x30)

/-- Pull P (43_transfer_stack.md R124). -/
def pullStatus (s : State) : State := (dropPulled s).setP (restoredStatus (pulled s) s.p)

/-- Pull a return address, low byte first: the word and the state after both pulls
(46_control_transfer.md R158, R159). -/
def pulledWord (s : State) : Word := word (pulled (dropPulled s)) (pulled s)

/-- The return from interrupt: pull P, then PC, with no 1 added (46_control_transfer.md R159). -/
def returnFromInterrupt (s : State) : Result :=
  redirect (pulledWord (pullStatus s)) (dropPulled (dropPulled (pullStatus s)))

end Sys2Proof.Machine
end

