-- ==== Sys2Proof/Machine/Flags.lean ====
section
/-! DEFINITION. The flags of P and every flag computation: the named flag-set operation (spec 10_state.md R21
to R24), the adder, the compare, the shifts and the rotates of `alu_8bit` (44_arithmetic.md R125, R129;
45_logic_shift.md R142 to R146). -/

namespace Sys2Proof.Machine

/-- The fields of P (10_state.md R21). -/
inductive Flag where
  | N | V | B2 | B | D | I | Z | C
  deriving DecidableEq, Repr

/-- The bit of each field (R21). -/
def Flag.bit : Flag → Nat
  | .N => 7
  | .V => 6
  | .B2 => 5
  | .B => 4
  | .D => 3
  | .I => 2
  | .Z => 1
  | .C => 0

/-- `get(f)`: `P[k] = 1` (R22). -/
def getFlag (p : Byte) (f : Flag) : Bool := p.getLsbD f.bit

/-- `set(f, b)`: `P | (1 << k)` or `P & ~(1 << k)` (R22). -/
def putFlag (p : Byte) (f : Flag) (b : Bool) : Byte :=
  if b then p ||| ((1 : Byte) <<< f.bit) else p &&& ~~~((1 : Byte) <<< f.bit)

/-- A flag of the machine. -/
def State.flag (s : State) (f : Flag) : Bool := getFlag s.p f

/-- Write one flag of the machine (R22). -/
def State.setFlag (f : Flag) (b : Bool) (s : State) : State := s.setP (putFlag s.p f b)

/-- `SetZN(r)`: Z when r is zero, N from bit 7 of r (R23). -/
def setZN (r : Byte) (s : State) : State := (s.setFlag .Z (r == 0)).setFlag .N r.msb

/-- What the adder answers: the sum reduced to a byte, the carry out, the overflow. -/
structure Sum where
  result : Byte
  carry : Bool
  overflow : Bool
  deriving DecidableEq, Repr

/-- `AddCore(a, m, cin)`: the full 9-bit sum and its reduction (44_arithmetic.md R125). -/
def addCore (a m : Byte) (cin : Bool) : Sum :=
  let exact := a.toNat + m.toNat + cin.toNat
  let r := BitVec.ofNat 8 exact
  { result := r, carry := decide (255 < exact), overflow := (a.msb == m.msb) && (r.msb != a.msb) }

/-- Write a sum to A and its flags C, V, Z, N (R127, R128). -/
def takeSum (r : Sum) (s : State) : State :=
  setZN r.result (((s.setA r.result).setFlag .C r.carry).setFlag .V r.overflow)

/-- `Compare(r, m)`: C, Z, N and no register (44_arithmetic.md R129). -/
def compareFlags (r m : Byte) (s : State) : State :=
  ((s.setFlag .C (decide (m.toNat ≤ r.toNat))).setFlag .Z (r == m)).setFlag .N (r - m).msb

/-- The flags of BIT: Z from `A & m`, N and V from bits 7 and 6 of m (45_logic_shift.md R142). -/
def bitFlags (m : Byte) (s : State) : State :=
  ((s.setFlag .Z ((s.a &&& m) == 0)).setFlag .N (m.getLsbD 7)).setFlag .V (m.getLsbD 6)

/-- What a shift or rotate answers: the byte and the bit shifted out, the new C. -/
structure Shifted where
  result : Byte
  carry : Bool
  deriving DecidableEq, Repr

/-- ASL (45_logic_shift.md R143). -/
def shiftLeft (v : Byte) : Shifted := ⟨v <<< 1, v.getLsbD 7⟩

/-- LSR (45_logic_shift.md R144). -/
def shiftRight (v : Byte) : Shifted := ⟨v >>> 1, v.getLsbD 0⟩

/-- ROL, with the old carry in bit 0 (45_logic_shift.md R145). -/
def rotateLeft (cin : Bool) (v : Byte) : Shifted :=
  ⟨(v <<< 1) ||| (if cin then 0x01 else 0x00), v.getLsbD 7⟩

/-- ROR, with the old carry in bit 7 (45_logic_shift.md R146). -/
def rotateRight (cin : Bool) (v : Byte) : Shifted :=
  ⟨(v >>> 1) ||| (if cin then 0x80 else 0x00), v.getLsbD 0⟩

/-- The flags of a shift or rotate: C, then Z and N from the result (R143 to R146). -/
def shiftFlags (r : Shifted) (s : State) : State := setZN r.result (s.setFlag .C r.carry)

end Sys2Proof.Machine
end

