-- ==== Sys2Proof/WellFormed.lean ====
section
/-! DEFINITION. Which operand modes each instruction has: the modes its own rule lists in its
"Encodings" line (spec 42_load_store.md to 47_flags_misc.md). -/

namespace Sys2Proof

/-- The modes the rule of each mnemonic lists. -/
def Mnemonic.modes : Mnemonic → List Mode
  | .LDA | .ADC | .SBC | .CMP | .AND | .ORA | .EOR =>
    [.immediate, .zeroPage, .zeroPageX, .absolute, .absoluteX, .absoluteY,
     .indexedIndirect, .indirectIndexed]
  | .LDX =>
    [.immediate, .zeroPage, .zeroPageY, .absolute, .absoluteY]
  | .LDY =>
    [.immediate, .zeroPage, .zeroPageX, .absolute, .absoluteX]
  | .STA =>
    [.zeroPage, .zeroPageX, .absolute, .absoluteX, .absoluteY, .indexedIndirect,
     .indirectIndexed]
  | .STX =>
    [.zeroPage, .zeroPageY, .absolute]
  | .STY =>
    [.zeroPage, .zeroPageX, .absolute]
  | .TAX | .TAY | .TSX | .TXA | .TXS | .TYA | .PHA | .PHP
  | .PLA | .PLP | .INX | .INY | .DEX | .DEY | .RTS | .RTI
  | .CLC | .SEC | .CLI | .SEI | .CLV | .CLD | .SED | .NOP
  | .BRK =>
    [.noAddressing]
  | .CPX | .CPY =>
    [.immediate, .zeroPage, .absolute]
  | .INC | .DEC =>
    [.zeroPage, .zeroPageX, .absolute, .absoluteX]
  | .BIT =>
    [.zeroPage, .absolute]
  | .ASL | .LSR | .ROL | .ROR =>
    [.noAddressing, .zeroPage, .zeroPageX, .absolute, .absoluteX]
  | .BPL | .BMI | .BVC | .BVS | .BCC | .BCS | .BNE | .BEQ =>
    [.relative]
  | .JMP =>
    [.absolute, .indirect]
  | .JSR =>
    [.absolute]

/-- An instruction is well formed when its rule lists the mode of its operand. -/
def Instr.wellFormed (i : Instr) : Bool := i.mnemonic.modes.contains i.mode

end Sys2Proof
end

