-- ==== Sys2Proof/Machine/Operands.lean ====
section
/-! DEFINITION. The address resolver (spec 41_addressing.md R91 to R104) and the operand helpers of the handlers
(R107). The operand bytes are those the instruction carries; on entry PC is the address of the first of
them (40_engine.md R74). -/

namespace Sys2Proof.Machine

/-- What the resolver returns (R92). -/
inductive Resolved where
  /-- `Imm(v)`: the operand is this byte -/
  | imm (v : Byte)
  /-- `Addr(ea)`: an effective address -/
  | addr (ea : Word)
  /-- `Target(t)`: a branch target -/
  | target (t : Word)
  deriving DecidableEq, Repr

/-- A pointer in the zero page, its high byte taken from `p +8 1` (R102, R103). -/
def zeroPagePointer (p : Byte) (s : State) : Word :=
  word (s.readByte (zext16 (p + 1))) (s.readByte (zext16 p))

/-- The word an Indirect operand points to (R101). -/
def indirectWord (ptr : Word) (s : State) : Word :=
  if s.config.jmpIndPageWrap && lo ptr == 0xFF then
    word (s.readByte (ptr &&& 0xFF00)) (s.readByte ptr)
  else
    s.readU16 ptr

/-- The target of a branch, counted from the address of the next instruction (R97). -/
def relativeTarget (off : Byte) (s : State) : Word := (s.pc + 1) + sext16 off

/-- `resolve(mode)` (R92 to R104): reads memory, writes nothing; NoAddressing resolves to nothing. -/
def resolve (o : Operand) (s : State) : Option Resolved :=
  match o with
  | .noAddressing => none
  | .immediate v => some (.imm v)
  | .zeroPage zp => some (.addr (zext16 zp))
  | .zeroPageX zp => some (.addr (zext16 (zp + s.x)))
  | .zeroPageY zp => some (.addr (zext16 (zp + s.y)))
  | .relative off => some (.target (relativeTarget off s))
  | .absolute w => some (.addr w)
  | .absoluteX w => some (.addr (w + zext16 s.x))
  | .absoluteY w => some (.addr (w + zext16 s.y))
  | .indirect ptr => some (.addr (indirectWord ptr s))
  | .indexedIndirect zp => some (.addr (zeroPagePointer (zp + s.x) s))
  | .indirectIndexed zp => some (.addr (zeroPagePointer zp s + zext16 s.y))

/-- `ReadOperand(mode)` (R107). -/
def readOperand (o : Operand) (s : State) : Option Byte :=
  match resolve o s with
  | some (.imm v) => some v
  | some (.addr ea) => some (s.readByte ea)
  | _ => none

/-- `EA(mode)` (R107). -/
def effectiveAddr (o : Operand) (s : State) : Option Word :=
  match resolve o s with
  | some (.addr ea) => some ea
  | _ => none

/-- A handler that reads its operand: `k` on the operand's byte, then the operand skip; a mode the rule
of `m` does not list is a resolver misuse (40_engine.md R84). -/
def withOperand (m : Mnemonic) (o : Operand) (k : Byte → State → State) (s : State) : Result :=
  if m.modes.contains o.mode then
    match readOperand o s with
    | some v => complete o.mode (k v s)
    | none => misuse o.mode s
  else misuse o.mode s

/-- A handler on its operand's address: `k` answers on the address; a mode the rule of `m` does not list
is a resolver misuse (40_engine.md R84). -/
def withAddress (m : Mnemonic) (o : Operand) (k : Word → State → Result) (s : State) : Result :=
  if m.modes.contains o.mode then
    match effectiveAddr o s with
    | some ea => k ea s
    | none => misuse o.mode s
  else misuse o.mode s

/-- A store of a byte at the operand's address (42_load_store.md R112 to R114). -/
def storeOperand (m : Mnemonic) (o : Operand) (v : Byte) (s : State) : Result :=
  withAddress m o (fun ea t => complete o.mode (t.writeByte ea v)) s

/-- A read-modify-write on memory: the address is computed once, the byte read, `f` of it written once,
the flags set from the byte read (R107). -/
def modifyMemory (m : Mnemonic) (o : Operand) (f : Byte → Byte) (flags : Byte → State → State)
    (s : State) : Result :=
  withAddress m o
    (fun ea t => complete o.mode (flags (t.readByte ea) (t.writeByte ea (f (t.readByte ea))))) s

/-- A shift or rotate: on A in the accumulator form, which calls no resolver (30_encoding.md R69), else a
read-modify-write (R107; 45_logic_shift.md R143 to R146). -/
def shiftOperand (m : Mnemonic) (o : Operand) (f : Byte → Shifted) (s : State) : Result :=
  match o with
  | .noAddressing => complete .noAddressing (shiftFlags (f s.a) (s.setA (f s.a).result))
  | _ => modifyMemory m o (fun v => (f v).result) (fun v => shiftFlags (f v)) s

end Sys2Proof.Machine
end

