-- ==== Sys2Proof/Machine/Arithmetic.lean ====
section
/-! DEFINITION. Add and subtract, compares, increments and decrements (spec 44_arithmetic.md R125 to R138). -/

namespace Sys2Proof.Machine

/-- Whether ADC and SBC are refused: D = 1 under `DECIMAL_ARITH = refuse` (R126). -/
def decimalRefused (s : State) : Bool :=
  decide (s.config.decimalArith = DecimalArith.refuse) && s.flag .D

/-- ADC: binary whatever D holds, unless refused (R126, R127). -/
def execAdc (o : Operand) (s : State) : Result :=
  if decimalRefused s then .refused (.decimalMode (opcodeAddr s))
  else withOperand .ADC o (fun v t => takeSum (addCore t.a v (t.flag .C)) t) s

/-- SBC: the adder on the complement of the operand, unless refused (R126, R128). -/
def execSbc (o : Operand) (s : State) : Result :=
  if decimalRefused s then .refused (.decimalMode (opcodeAddr s))
  else withOperand .SBC o (fun v t => takeSum (addCore t.a (~~~v) (t.flag .C)) t) s

/-- CMP (R130). -/
def execCmp (o : Operand) (s : State) : Result :=
  withOperand .CMP o (fun v t => compareFlags t.a v t) s

/-- CPX (R131). -/
def execCpx (o : Operand) (s : State) : Result :=
  withOperand .CPX o (fun v t => compareFlags t.x v t) s

/-- CPY (R132). -/
def execCpy (o : Operand) (s : State) : Result :=
  withOperand .CPY o (fun v t => compareFlags t.y v t) s

/-- INC (R133). -/
def execInc (o : Operand) (s : State) : Result :=
  modifyMemory .INC o (fun v => v + 1) (fun v => setZN (v + 1)) s

/-- INX (R134). -/
def execInx (s : State) : Result := complete .noAddressing (setZN (s.x + 1) (s.setX (s.x + 1)))

/-- INY (R135). -/
def execIny (s : State) : Result := complete .noAddressing (setZN (s.y + 1) (s.setY (s.y + 1)))

/-- DEC (R136). -/
def execDec (o : Operand) (s : State) : Result :=
  modifyMemory .DEC o (fun v => v - 1) (fun v => setZN (v - 1)) s

/-- DEX (R137). -/
def execDex (s : State) : Result := complete .noAddressing (setZN (s.x - 1) (s.setX (s.x - 1)))

/-- DEY (R138). -/
def execDey (s : State) : Result := complete .noAddressing (setZN (s.y - 1) (s.setY (s.y - 1)))

end Sys2Proof.Machine
end

