-- ==== Sys2Proof/Machine/Control.lean ====
section
/-! DEFINITION. Branches, jumps, subroutine call and returns (spec 46_control_transfer.md R147 to R159). -/

namespace Sys2Proof.Machine

/-- The common rule of the conditional branches: a redirect when the condition holds, else the operand
skip (R147). -/
def branch (cond : Bool) (off : Byte) (s : State) : Result :=
  if cond then redirect (relativeTarget off s) s else complete .relative s

/-- BPL: N = 0 (R148). -/
def execBpl (off : Byte) (s : State) : Result := branch (!s.flag .N) off s

/-- BMI: N = 1 (R149). -/
def execBmi (off : Byte) (s : State) : Result := branch (s.flag .N) off s

/-- BVC: V = 0 (R150). -/
def execBvc (off : Byte) (s : State) : Result := branch (!s.flag .V) off s

/-- BVS: V = 1 (R151). -/
def execBvs (off : Byte) (s : State) : Result := branch (s.flag .V) off s

/-- BCC: C = 0 (R152). -/
def execBcc (off : Byte) (s : State) : Result := branch (!s.flag .C) off s

/-- BCS: C = 1 (R153). -/
def execBcs (off : Byte) (s : State) : Result := branch (s.flag .C) off s

/-- BNE: Z = 0 (R154). -/
def execBne (off : Byte) (s : State) : Result := branch (!s.flag .Z) off s

/-- BEQ: Z = 1 (R155). -/
def execBeq (off : Byte) (s : State) : Result := branch (s.flag .Z) off s

/-- JMP (R156). -/
def execJmp (o : Operand) (s : State) : Result := withAddress .JMP o redirect s

/-- JSR: push the address of its own last byte, high byte first, then jump (R157). -/
def execJsr (target : Word) (s : State) : Result :=
  redirect target (push (lo (s.pc + 1)) (push (hi (s.pc + 1)) s))

/-- RTS: pull low, then high, and add 1 (R158). -/
def execRts (s : State) : Result := redirect (pulledWord s + 1) (dropPulled (dropPulled s))

/-- RTI (R159). -/
def execRti (s : State) : Result := returnFromInterrupt s

end Sys2Proof.Machine
end

