-- ==== Sys2Proof/Machine/FlagsMisc.lean ====
section
/-! DEFINITION. Flag control, NOP and BRK (spec 47_flags_misc.md R160 to R168). -/

namespace Sys2Proof.Machine

/-- CLC (R160). -/
def execClc (s : State) : Result := complete .noAddressing (s.setFlag .C false)

/-- SEC (R161). -/
def execSec (s : State) : Result := complete .noAddressing (s.setFlag .C true)

/-- CLI (R162). -/
def execCli (s : State) : Result := complete .noAddressing (s.setFlag .I false)

/-- SEI (R163). -/
def execSei (s : State) : Result := complete .noAddressing (s.setFlag .I true)

/-- CLV (R164). -/
def execClv (s : State) : Result := complete .noAddressing (s.setFlag .V false)

/-- CLD (R165). -/
def execCld (s : State) : Result := complete .noAddressing (s.setFlag .D false)

/-- SED (R166). -/
def execSed (s : State) : Result := complete .noAddressing (s.setFlag .D true)

/-- NOP (R167). -/
def execNop (s : State) : Result := complete .noAddressing s

/-- BRK: the run halts with `Brk(addr)`, PC stays at the opcode address plus 1 (R168). -/
def execBrk (s : State) : Result := .next (raiseHalt (.brk (opcodeAddr s)) s)

end Sys2Proof.Machine
end

