-- ==== Sys2Proof/Machine/LoadStore.lean ====
section
/-! DEFINITION. Loads and stores (spec 42_load_store.md R109 to R114). -/

namespace Sys2Proof.Machine

/-- LDA (R109). -/
def execLda (o : Operand) (s : State) : Result :=
  withOperand .LDA o (fun v t => setZN v (t.setA v)) s

/-- LDX (R110). -/
def execLdx (o : Operand) (s : State) : Result :=
  withOperand .LDX o (fun v t => setZN v (t.setX v)) s

/-- LDY (R111). -/
def execLdy (o : Operand) (s : State) : Result :=
  withOperand .LDY o (fun v t => setZN v (t.setY v)) s

/-- STA (R112). -/
def execSta (o : Operand) (s : State) : Result := storeOperand .STA o s.a s

/-- STX (R113). -/
def execStx (o : Operand) (s : State) : Result := storeOperand .STX o s.x s

/-- STY (R114). -/
def execSty (o : Operand) (s : State) : Result := storeOperand .STY o s.y s

end Sys2Proof.Machine
end

