-- ==== Sys2Proof/Machine/LogicShift.lean ====
section
/-! DEFINITION. Logic, bit test, shifts and rotates (spec 45_logic_shift.md R139 to R146). -/

namespace Sys2Proof.Machine

/-- AND (R139). -/
def execAnd (o : Operand) (s : State) : Result :=
  withOperand .AND o (fun v t => setZN (t.a &&& v) (t.setA (t.a &&& v))) s

/-- ORA (R140). -/
def execOra (o : Operand) (s : State) : Result :=
  withOperand .ORA o (fun v t => setZN (t.a ||| v) (t.setA (t.a ||| v))) s

/-- EOR (R141). -/
def execEor (o : Operand) (s : State) : Result :=
  withOperand .EOR o (fun v t => setZN (t.a ^^^ v) (t.setA (t.a ^^^ v))) s

/-- BIT (R142). -/
def execBit (o : Operand) (s : State) : Result := withOperand .BIT o bitFlags s

/-- ASL (R143). -/
def execAsl (o : Operand) (s : State) : Result := shiftOperand .ASL o shiftLeft s

/-- LSR (R144). -/
def execLsr (o : Operand) (s : State) : Result := shiftOperand .LSR o shiftRight s

/-- ROL (R145). -/
def execRol (o : Operand) (s : State) : Result := shiftOperand .ROL o (rotateLeft (s.flag .C)) s

/-- ROR (R146). -/
def execRor (o : Operand) (s : State) : Result := shiftOperand .ROR o (rotateRight (s.flag .C)) s

end Sys2Proof.Machine
end

