-- ==== Sys2Proof/Machine/TransferStack.lean ====
section
/-! DEFINITION. Register transfers and stack instructions (spec 43_transfer_stack.md R115 to R124). -/

namespace Sys2Proof.Machine

/-- TAX (R115). -/
def execTax (s : State) : Result := complete .noAddressing (setZN s.a (s.setX s.a))

/-- TAY (R116). -/
def execTay (s : State) : Result := complete .noAddressing (setZN s.a (s.setY s.a))

/-- TSX (R117). -/
def execTsx (s : State) : Result := complete .noAddressing (setZN s.sp (s.setX s.sp))

/-- TXA (R118). -/
def execTxa (s : State) : Result := complete .noAddressing (setZN s.x (s.setA s.x))

/-- TXS, which writes no flag (R119). -/
def execTxs (s : State) : Result := complete .noAddressing (s.setSp s.x)

/-- TYA (R120). -/
def execTya (s : State) : Result := complete .noAddressing (setZN s.y (s.setA s.y))

/-- PHA (R121). -/
def execPha (s : State) : Result := complete .noAddressing (push s.a s)

/-- PHP: the pushed copy has bits 4 and 5 set, P keeps its value (R122). -/
def execPhp (s : State) : Result := complete .noAddressing (push (pushedStatus s.p) s)

/-- PLA (R123). -/
def execPla (s : State) : Result :=
  complete .noAddressing (setZN (pulled s) ((dropPulled s).setA (pulled s)))

/-- PLP (R124). -/
def execPlp (s : State) : Result := complete .noAddressing (pullStatus s)

end Sys2Proof.Machine
end

