-- ==== Sys2Proof/Decode.lean ====
section
/-! DEFINITION. The instruction decoder and the encoder. The decoder reads the opcode table, written row by
row from the opcode map of spec 30_encoding.md R64; the encoder is written from the "Encodings" lines of
the instruction rules R109 to R168, so the two come from different places of the spec. -/

namespace Sys2Proof

open Sys2Proof.Machine

/-- The timing note of a table entry (70_reset_and_hazards.md R197, R198): informational only. -/
inductive CycleNote where
  /-- the base cost stands alone -/
  | plain
  /-- one more when the indexed address crosses a page -/
  | pageCross
  /-- one more when taken, and one more again when the target is on another page -/
  | branch
  deriving DecidableEq, Repr

/-- A row of the opcode table (30_encoding.md R60). -/
structure Descriptor where
  opcode : Byte
  mnemonic : Mnemonic
  mode : Mode
  lengthBytes : Nat
  baseCycles : Nat
  cycleNote : CycleNote
  deriving DecidableEq, Repr

/-- A row: opcode, mnemonic, mode, `length_bytes`, `base_cycles` and its note. -/
def row (op : Byte) (m : Mnemonic) (mode : Mode) (len cycles : Nat) (note : CycleNote := .plain) :
    Descriptor := ⟨op, m, mode, len, cycles, note⟩

/-- The line 0x of the opcode map (R64). -/
def opcodeRows0 : List Descriptor :=
  [row 0x00 .BRK .noAddressing 1 7,
   row 0x01 .ORA .indexedIndirect 2 6,
   row 0x05 .ORA .zeroPage 2 3,
   row 0x06 .ASL .zeroPage 2 5,
   row 0x08 .PHP .noAddressing 1 3,
   row 0x09 .ORA .immediate 2 2,
   row 0x0A .ASL .noAddressing 1 2,
   row 0x0D .ORA .absolute 3 4,
   row 0x0E .ASL .absolute 3 6]

/-- The line 1x of the opcode map (R64). -/
def opcodeRows1 : List Descriptor :=
  [row 0x10 .BPL .relative 2 2 .branch,
   row 0x11 .ORA .indirectIndexed 2 5 .pageCross,
   row 0x15 .ORA .zeroPageX 2 4,
   row 0x16 .ASL .zeroPageX 2 6,
   row 0x18 .CLC .noAddressing 1 2,
   row 0x19 .ORA .absoluteY 3 4 .pageCross,
   row 0x1D .ORA .absoluteX 3 4 .pageCross,
   row 0x1E .ASL .absoluteX 3 7]

/-- The line 2x of the opcode map (R64). -/
def opcodeRows2 : List Descriptor :=
  [row 0x20 .JSR .absolute 3 6,
   row 0x21 .AND .indexedIndirect 2 6,
   row 0x24 .BIT .zeroPage 2 3,
   row 0x25 .AND .zeroPage 2 3,
   row 0x26 .ROL .zeroPage 2 5,
   row 0x28 .PLP .noAddressing 1 4,
   row 0x29 .AND .immediate 2 2,
   row 0x2A .ROL .noAddressing 1 2,
   row 0x2C .BIT .absolute 3 4,
   row 0x2D .AND .absolute 3 4,
   row 0x2E .ROL .absolute 3 6]

/-- The line 3x of the opcode map (R64). -/
def opcodeRows3 : List Descriptor :=
  [row 0x30 .BMI .relative 2 2 .branch,
   row 0x31 .AND .indirectIndexed 2 5 .pageCross,
   row 0x35 .AND .zeroPageX 2 4,
   row 0x36 .ROL .zeroPageX 2 6,
   row 0x38 .SEC .noAddressing 1 2,
   row 0x39 .AND .absoluteY 3 4 .pageCross,
   row 0x3D .AND .absoluteX 3 4 .pageCross,
   row 0x3E .ROL .absoluteX 3 7]

/-- The line 4x of the opcode map (R64). -/
def opcodeRows4 : List Descriptor :=
  [row 0x40 .RTI .noAddressing 1 6,
   row 0x41 .EOR .indexedIndirect 2 6,
   row 0x45 .EOR .zeroPage 2 3,
   row 0x46 .LSR .zeroPage 2 5,
   row 0x48 .PHA .noAddressing 1 3,
   row 0x49 .EOR .immediate 2 2,
   row 0x4A .LSR .noAddressing 1 2,
   row 0x4C .JMP .absolute 3 3,
   row 0x4D .EOR .absolute 3 4,
   row 0x4E .LSR .absolute 3 6]

/-- The line 5x of the opcode map (R64). -/
def opcodeRows5 : List Descriptor :=
  [row 0x50 .BVC .relative 2 2 .branch,
   row 0x51 .EOR .indirectIndexed 2 5 .pageCross,
   row 0x55 .EOR .zeroPageX 2 4,
   row 0x56 .LSR .zeroPageX 2 6,
   row 0x58 .CLI .noAddressing 1 2,
   row 0x59 .EOR .absoluteY 3 4 .pageCross,
   row 0x5D .EOR .absoluteX 3 4 .pageCross,
   row 0x5E .LSR .absoluteX 3 7]

/-- The line 6x of the opcode map (R64). -/
def opcodeRows6 : List Descriptor :=
  [row 0x60 .RTS .noAddressing 1 6,
   row 0x61 .ADC .indexedIndirect 2 6,
   row 0x65 .ADC .zeroPage 2 3,
   row 0x66 .ROR .zeroPage 2 5,
   row 0x68 .PLA .noAddressing 1 4,
   row 0x69 .ADC .immediate 2 2,
   row 0x6A .ROR .noAddressing 1 2,
   row 0x6C .JMP .indirect 3 5,
   row 0x6D .ADC .absolute 3 4,
   row 0x6E .ROR .absolute 3 6]

/-- The line 7x of the opcode map (R64). -/
def opcodeRows7 : List Descriptor :=
  [row 0x70 .BVS .relative 2 2 .branch,
   row 0x71 .ADC .indirectIndexed 2 5 .pageCross,
   row 0x75 .ADC .zeroPageX 2 4,
   row 0x76 .ROR .zeroPageX 2 6,
   row 0x78 .SEI .noAddressing 1 2,
   row 0x79 .ADC .absoluteY 3 4 .pageCross,
   row 0x7D .ADC .absoluteX 3 4 .pageCross,
   row 0x7E .ROR .absoluteX 3 7]

/-- The line 8x of the opcode map (R64). -/
def opcodeRows8 : List Descriptor :=
  [row 0x81 .STA .indexedIndirect 2 6,
   row 0x84 .STY .zeroPage 2 3,
   row 0x85 .STA .zeroPage 2 3,
   row 0x86 .STX .zeroPage 2 3,
   row 0x88 .DEY .noAddressing 1 2,
   row 0x8A .TXA .noAddressing 1 2,
   row 0x8C .STY .absolute 3 4,
   row 0x8D .STA .absolute 3 4,
   row 0x8E .STX .absolute 3 4]

/-- The line 9x of the opcode map (R64). -/
def opcodeRows9 : List Descriptor :=
  [row 0x90 .BCC .relative 2 2 .branch,
   row 0x91 .STA .indirectIndexed 2 6,
   row 0x94 .STY .zeroPageX 2 4,
   row 0x95 .STA .zeroPageX 2 4,
   row 0x96 .STX .zeroPageY 2 4,
   row 0x98 .TYA .noAddressing 1 2,
   row 0x99 .STA .absoluteY 3 5,
   row 0x9A .TXS .noAddressing 1 2,
   row 0x9D .STA .absoluteX 3 5]

/-- The line Ax of the opcode map (R64). -/
def opcodeRowsA : List Descriptor :=
  [row 0xA0 .LDY .immediate 2 2,
   row 0xA1 .LDA .indexedIndirect 2 6,
   row 0xA2 .LDX .immediate 2 2,
   row 0xA4 .LDY .zeroPage 2 3,
   row 0xA5 .LDA .zeroPage 2 3,
   row 0xA6 .LDX .zeroPage 2 3,
   row 0xA8 .TAY .noAddressing 1 2,
   row 0xA9 .LDA .immediate 2 2,
   row 0xAA .TAX .noAddressing 1 2,
   row 0xAC .LDY .absolute 3 4,
   row 0xAD .LDA .absolute 3 4,
   row 0xAE .LDX .absolute 3 4]

/-- The line Bx of the opcode map (R64). -/
def opcodeRowsB : List Descriptor :=
  [row 0xB0 .BCS .relative 2 2 .branch,
   row 0xB1 .LDA .indirectIndexed 2 5 .pageCross,
   row 0xB4 .LDY .zeroPageX 2 4,
   row 0xB5 .LDA .zeroPageX 2 4,
   row 0xB6 .LDX .zeroPageY 2 4,
   row 0xB8 .CLV .noAddressing 1 2,
   row 0xB9 .LDA .absoluteY 3 4 .pageCross,
   row 0xBA .TSX .noAddressing 1 2,
   row 0xBC .LDY .absoluteX 3 4 .pageCross,
   row 0xBD .LDA .absoluteX 3 4 .pageCross,
   row 0xBE .LDX .absoluteY 3 4 .pageCross]

/-- The line Cx of the opcode map (R64). -/
def opcodeRowsC : List Descriptor :=
  [row 0xC0 .CPY .immediate 2 2,
   row 0xC1 .CMP .indexedIndirect 2 6,
   row 0xC4 .CPY .zeroPage 2 3,
   row 0xC5 .CMP .zeroPage 2 3,
   row 0xC6 .DEC .zeroPage 2 5,
   row 0xC8 .INY .noAddressing 1 2,
   row 0xC9 .CMP .immediate 2 2,
   row 0xCA .DEX .noAddressing 1 2,
   row 0xCC .CPY .absolute 3 4,
   row 0xCD .CMP .absolute 3 4,
   row 0xCE .DEC .absolute 3 6]

/-- The line Dx of the opcode map (R64). -/
def opcodeRowsD : List Descriptor :=
  [row 0xD0 .BNE .relative 2 2 .branch,
   row 0xD1 .CMP .indirectIndexed 2 5 .pageCross,
   row 0xD5 .CMP .zeroPageX 2 4,
   row 0xD6 .DEC .zeroPageX 2 6,
   row 0xD8 .CLD .noAddressing 1 2,
   row 0xD9 .CMP .absoluteY 3 4 .pageCross,
   row 0xDD .CMP .absoluteX 3 4 .pageCross,
   row 0xDE .DEC .absoluteX 3 7]

/-- The line Ex of the opcode map (R64). -/
def opcodeRowsE : List Descriptor :=
  [row 0xE0 .CPX .immediate 2 2,
   row 0xE1 .SBC .indexedIndirect 2 6,
   row 0xE4 .CPX .zeroPage 2 3,
   row 0xE5 .SBC .zeroPage 2 3,
   row 0xE6 .INC .zeroPage 2 5,
   row 0xE8 .INX .noAddressing 1 2,
   row 0xE9 .SBC .immediate 2 2,
   row 0xEA .NOP .noAddressing 1 2,
   row 0xEC .CPX .absolute 3 4,
   row 0xED .SBC .absolute 3 4,
   row 0xEE .INC .absolute 3 6]

/-- The line Fx of the opcode map (R64). -/
def opcodeRowsF : List Descriptor :=
  [row 0xF0 .BEQ .relative 2 2 .branch,
   row 0xF1 .SBC .indirectIndexed 2 5 .pageCross,
   row 0xF5 .SBC .zeroPageX 2 4,
   row 0xF6 .INC .zeroPageX 2 6,
   row 0xF8 .SED .noAddressing 1 2,
   row 0xF9 .SBC .absoluteY 3 4 .pageCross,
   row 0xFD .SBC .absoluteX 3 4 .pageCross,
   row 0xFE .INC .absoluteX 3 7]

/-- The opcode table: 151 rows, a constant (10_state.md R30; 30_encoding.md R60, R64). -/
def opcodeTable : List Descriptor :=
  opcodeRows0 ++ opcodeRows1 ++ opcodeRows2 ++ opcodeRows3 ++
  opcodeRows4 ++ opcodeRows5 ++ opcodeRows6 ++ opcodeRows7 ++
  opcodeRows8 ++ opcodeRows9 ++ opcodeRowsA ++ opcodeRowsB ++
  opcodeRowsC ++ opcodeRowsD ++ opcodeRowsE ++ opcodeRowsF

/-- `decode(op)`: the descriptor of an opcode byte, or none when the byte is absent (R61, R65). -/
def lookupOpcode (op : Byte) : Option Descriptor := opcodeTable.find? (fun d => d.opcode == op)

/-- The operand of a mode from its operand bytes `b1` and `b2` (R62); a mode with fewer bytes ignores
the rest. -/
def Operand.assemble (mode : Mode) (b1 b2 : Byte) : Operand :=
  match mode with
  | .noAddressing => .noAddressing
  | .immediate => .immediate b1
  | .zeroPage => .zeroPage b1
  | .zeroPageX => .zeroPageX b1
  | .zeroPageY => .zeroPageY b1
  | .relative => .relative b1
  | .absolute => .absolute (word b2 b1)
  | .absoluteX => .absoluteX (word b2 b1)
  | .absoluteY => .absoluteY (word b2 b1)
  | .indirect => .indirect (word b2 b1)
  | .indexedIndirect => .indexedIndirect b1
  | .indirectIndexed => .indirectIndexed b1

/-- The instruction of a mnemonic, a mode and the operand bytes: the handler of R77 with its mode. -/
def Instr.assemble (m : Mnemonic) (mode : Mode) (b1 b2 : Byte) : Instr :=
  match m with
  | .LDA => .lda (Operand.assemble mode b1 b2)
  | .LDX => .ldx (Operand.assemble mode b1 b2)
  | .LDY => .ldy (Operand.assemble mode b1 b2)
  | .STA => .sta (Operand.assemble mode b1 b2)
  | .STX => .stx (Operand.assemble mode b1 b2)
  | .STY => .sty (Operand.assemble mode b1 b2)
  | .TAX => .tax
  | .TAY => .tay
  | .TSX => .tsx
  | .TXA => .txa
  | .TXS => .txs
  | .TYA => .tya
  | .PHA => .pha
  | .PHP => .php
  | .PLA => .pla
  | .PLP => .plp
  | .ADC => .adc (Operand.assemble mode b1 b2)
  | .SBC => .sbc (Operand.assemble mode b1 b2)
  | .CMP => .cmp (Operand.assemble mode b1 b2)
  | .CPX => .cpx (Operand.assemble mode b1 b2)
  | .CPY => .cpy (Operand.assemble mode b1 b2)
  | .INC => .inc (Operand.assemble mode b1 b2)
  | .INX => .inx
  | .INY => .iny
  | .DEC => .dec (Operand.assemble mode b1 b2)
  | .DEX => .dex
  | .DEY => .dey
  | .AND => .and (Operand.assemble mode b1 b2)
  | .ORA => .ora (Operand.assemble mode b1 b2)
  | .EOR => .eor (Operand.assemble mode b1 b2)
  | .BIT => .bit (Operand.assemble mode b1 b2)
  | .ASL => .asl (Operand.assemble mode b1 b2)
  | .LSR => .lsr (Operand.assemble mode b1 b2)
  | .ROL => .rol (Operand.assemble mode b1 b2)
  | .ROR => .ror (Operand.assemble mode b1 b2)
  | .BPL => .bpl b1
  | .BMI => .bmi b1
  | .BVC => .bvc b1
  | .BVS => .bvs b1
  | .BCC => .bcc b1
  | .BCS => .bcs b1
  | .BNE => .bne b1
  | .BEQ => .beq b1
  | .JMP => .jmp (Operand.assemble mode b1 b2)
  | .JSR => .jsr (word b2 b1)
  | .RTS => .rts
  | .RTI => .rti
  | .CLC => .clc
  | .SEC => .sec
  | .CLI => .cli
  | .SEI => .sei
  | .CLV => .clv
  | .CLD => .cld
  | .SED => .sed
  | .NOP => .nop
  | .BRK => .brk

/-- Why bytes are rejected. -/
inductive DecodeReject where
  /-- no byte to decode -/
  | noBytes
  /-- the opcode byte has no descriptor (R65) -/
  | absentOpcode (op : Byte)
  /-- fewer operand bytes than the descriptor's length asks for -/
  | truncated (op : Byte)
  deriving DecidableEq, Repr

/-- What the decoder answers: an instruction with the bytes after it, or a rejection by name. -/
inductive DecodeResult where
  | ok (i : Instr) (rest : List Byte)
  | reject (r : DecodeReject)
  deriving DecidableEq, Repr

/-- The decoder, total on any bytes: the opcode byte alone fixes mnemonic, mode and length (R61, R68),
the operand bytes follow it (R59, R62). -/
def decode : List Byte → DecodeResult
  | [] => .reject .noBytes
  | op :: bytes =>
    match lookupOpcode op with
    | none => .reject (.absentOpcode op)
    | some d =>
      match d.lengthBytes, bytes with
      | 1, rest => .ok (Instr.assemble d.mnemonic d.mode 0 0) rest
      | 2, b1 :: rest => .ok (Instr.assemble d.mnemonic d.mode b1 0) rest
      | 3, b1 :: b2 :: rest => .ok (Instr.assemble d.mnemonic d.mode b1 b2) rest
      | _, _ => .reject (.truncated op)

/-- The operand bytes of an operand, low byte first (R59, R62). -/
def Operand.bytes : Operand → List Byte
  | .noAddressing => []
  | .immediate b | .zeroPage b | .zeroPageX b | .zeroPageY b | .relative b | .indexedIndirect b
  | .indirectIndexed b => [b]
  | .absolute w | .absoluteX w | .absoluteY w | .indirect w => [lo w, hi w]

/-- The opcode byte of a mnemonic in a mode, from the "Encodings" line of its rule (R109 to R168);
none where the rule lists no such mode. -/
def opcodeOf : Mnemonic → Mode → Option Byte
  | .LDA, .immediate => some 0xA9
  | .LDA, .zeroPage => some 0xA5
  | .LDA, .zeroPageX => some 0xB5
  | .LDA, .absolute => some 0xAD
  | .LDA, .absoluteX => some 0xBD
  | .LDA, .absoluteY => some 0xB9
  | .LDA, .indexedIndirect => some 0xA1
  | .LDA, .indirectIndexed => some 0xB1
  | .LDX, .immediate => some 0xA2
  | .LDX, .zeroPage => some 0xA6
  | .LDX, .zeroPageY => some 0xB6
  | .LDX, .absolute => some 0xAE
  | .LDX, .absoluteY => some 0xBE
  | .LDY, .immediate => some 0xA0
  | .LDY, .zeroPage => some 0xA4
  | .LDY, .zeroPageX => some 0xB4
  | .LDY, .absolute => some 0xAC
  | .LDY, .absoluteX => some 0xBC
  | .STA, .zeroPage => some 0x85
  | .STA, .zeroPageX => some 0x95
  | .STA, .absolute => some 0x8D
  | .STA, .absoluteX => some 0x9D
  | .STA, .absoluteY => some 0x99
  | .STA, .indexedIndirect => some 0x81
  | .STA, .indirectIndexed => some 0x91
  | .STX, .zeroPage => some 0x86
  | .STX, .zeroPageY => some 0x96
  | .STX, .absolute => some 0x8E
  | .STY, .zeroPage => some 0x84
  | .STY, .zeroPageX => some 0x94
  | .STY, .absolute => some 0x8C
  | .TAX, .noAddressing => some 0xAA
  | .TAY, .noAddressing => some 0xA8
  | .TSX, .noAddressing => some 0xBA
  | .TXA, .noAddressing => some 0x8A
  | .TXS, .noAddressing => some 0x9A
  | .TYA, .noAddressing => some 0x98
  | .PHA, .noAddressing => some 0x48
  | .PHP, .noAddressing => some 0x08
  | .PLA, .noAddressing => some 0x68
  | .PLP, .noAddressing => some 0x28
  | .ADC, .immediate => some 0x69
  | .ADC, .zeroPage => some 0x65
  | .ADC, .zeroPageX => some 0x75
  | .ADC, .absolute => some 0x6D
  | .ADC, .absoluteX => some 0x7D
  | .ADC, .absoluteY => some 0x79
  | .ADC, .indexedIndirect => some 0x61
  | .ADC, .indirectIndexed => some 0x71
  | .SBC, .immediate => some 0xE9
  | .SBC, .zeroPage => some 0xE5
  | .SBC, .zeroPageX => some 0xF5
  | .SBC, .absolute => some 0xED
  | .SBC, .absoluteX => some 0xFD
  | .SBC, .absoluteY => some 0xF9
  | .SBC, .indexedIndirect => some 0xE1
  | .SBC, .indirectIndexed => some 0xF1
  | .CMP, .immediate => some 0xC9
  | .CMP, .zeroPage => some 0xC5
  | .CMP, .zeroPageX => some 0xD5
  | .CMP, .absolute => some 0xCD
  | .CMP, .absoluteX => some 0xDD
  | .CMP, .absoluteY => some 0xD9
  | .CMP, .indexedIndirect => some 0xC1
  | .CMP, .indirectIndexed => some 0xD1
  | .CPX, .immediate => some 0xE0
  | .CPX, .zeroPage => some 0xE4
  | .CPX, .absolute => some 0xEC
  | .CPY, .immediate => some 0xC0
  | .CPY, .zeroPage => some 0xC4
  | .CPY, .absolute => some 0xCC
  | .INC, .zeroPage => some 0xE6
  | .INC, .zeroPageX => some 0xF6
  | .INC, .absolute => some 0xEE
  | .INC, .absoluteX => some 0xFE
  | .INX, .noAddressing => some 0xE8
  | .INY, .noAddressing => some 0xC8
  | .DEC, .zeroPage => some 0xC6
  | .DEC, .zeroPageX => some 0xD6
  | .DEC, .absolute => some 0xCE
  | .DEC, .absoluteX => some 0xDE
  | .DEX, .noAddressing => some 0xCA
  | .DEY, .noAddressing => some 0x88
  | .AND, .immediate => some 0x29
  | .AND, .zeroPage => some 0x25
  | .AND, .zeroPageX => some 0x35
  | .AND, .absolute => some 0x2D
  | .AND, .absoluteX => some 0x3D
  | .AND, .absoluteY => some 0x39
  | .AND, .indexedIndirect => some 0x21
  | .AND, .indirectIndexed => some 0x31
  | .ORA, .immediate => some 0x09
  | .ORA, .zeroPage => some 0x05
  | .ORA, .zeroPageX => some 0x15
  | .ORA, .absolute => some 0x0D
  | .ORA, .absoluteX => some 0x1D
  | .ORA, .absoluteY => some 0x19
  | .ORA, .indexedIndirect => some 0x01
  | .ORA, .indirectIndexed => some 0x11
  | .EOR, .immediate => some 0x49
  | .EOR, .zeroPage => some 0x45
  | .EOR, .zeroPageX => some 0x55
  | .EOR, .absolute => some 0x4D
  | .EOR, .absoluteX => some 0x5D
  | .EOR, .absoluteY => some 0x59
  | .EOR, .indexedIndirect => some 0x41
  | .EOR, .indirectIndexed => some 0x51
  | .BIT, .zeroPage => some 0x24
  | .BIT, .absolute => some 0x2C
  | .ASL, .noAddressing => some 0x0A
  | .ASL, .zeroPage => some 0x06
  | .ASL, .zeroPageX => some 0x16
  | .ASL, .absolute => some 0x0E
  | .ASL, .absoluteX => some 0x1E
  | .LSR, .noAddressing => some 0x4A
  | .LSR, .zeroPage => some 0x46
  | .LSR, .zeroPageX => some 0x56
  | .LSR, .absolute => some 0x4E
  | .LSR, .absoluteX => some 0x5E
  | .ROL, .noAddressing => some 0x2A
  | .ROL, .zeroPage => some 0x26
  | .ROL, .zeroPageX => some 0x36
  | .ROL, .absolute => some 0x2E
  | .ROL, .absoluteX => some 0x3E
  | .ROR, .noAddressing => some 0x6A
  | .ROR, .zeroPage => some 0x66
  | .ROR, .zeroPageX => some 0x76
  | .ROR, .absolute => some 0x6E
  | .ROR, .absoluteX => some 0x7E
  | .BPL, .relative => some 0x10
  | .BMI, .relative => some 0x30
  | .BVC, .relative => some 0x50
  | .BVS, .relative => some 0x70
  | .BCC, .relative => some 0x90
  | .BCS, .relative => some 0xB0
  | .BNE, .relative => some 0xD0
  | .BEQ, .relative => some 0xF0
  | .JMP, .absolute => some 0x4C
  | .JMP, .indirect => some 0x6C
  | .JSR, .absolute => some 0x20
  | .RTS, .noAddressing => some 0x60
  | .RTI, .noAddressing => some 0x40
  | .CLC, .noAddressing => some 0x18
  | .SEC, .noAddressing => some 0x38
  | .CLI, .noAddressing => some 0x58
  | .SEI, .noAddressing => some 0x78
  | .CLV, .noAddressing => some 0xB8
  | .CLD, .noAddressing => some 0xD8
  | .SED, .noAddressing => some 0xF8
  | .NOP, .noAddressing => some 0xEA
  | .BRK, .noAddressing => some 0x00
  | _, _ => none

/-- The bytes of a well-formed instruction; an ill-formed one has none. -/
def encode (i : Instr) : List Byte :=
  match opcodeOf i.mnemonic i.mode with
  | some op => op :: i.operand.bytes
  | none => []

/-- The bytes of an instruction given as a number, bit 0 the lowest bit of its first byte, the bits
above `nbits` zero: three bytes, the longest instruction (R59). -/
def tableBytes (nbits w : Nat) : List Byte :=
  let v := w % 2 ^ nbits
  [BitVec.ofNat 8 v, BitVec.ofNat 8 (v / 256), BitVec.ofNat 8 (v / 65536)]

/-- The instruction the decoder reads from an instruction's bits as the opcode table numbers them. -/
def decodeTableWord (nbits w : Nat) : Option Instr :=
  match decode (tableBytes nbits w) with
  | .ok i _ => some i
  | .reject _ => none

end Sys2Proof
end

