-- ==== Sys2Proof/Machine/Engine.lean ====
section
/-! DEFINITION. The execution engine around the handlers (spec 40_engine.md R73 to R84): the checks before
dispatch, the fetch, the decode failure and the unimplemented mnemonic, and the cause codes. -/

namespace Sys2Proof.Machine

/-- The bytes at PC, as many as the longest instruction has; the addresses wrap at the top of memory
(30_encoding.md R59, R63). -/
def fetchBytes (s : State) : List Byte :=
  [s.readByte s.pc, s.readByte (s.pc + 1), s.readByte (s.pc + 2)]

/-- The opcode byte at PC, `fetch8`'s value (40_engine.md R75). -/
def fetchOpcode (s : State) : Byte := s.readByte s.pc

/-- A decode failure: the run halts, PC the opcode address plus 1 (R82). -/
def decodeFailure (s : State) : State :=
  raiseHalt (.decodeError (fetchOpcode s) s.pc) (fetched s)

/-- Whether the engine treats a mnemonic as recognized but unimplemented (R83). -/
def isUnimplemented (s : State) (m : Mnemonic) : Bool := s.config.unimplemented.contains m

/-- `handle_unimplemented` (R83). -/
def handleUnimplemented (i : Instr) (s : State) : State :=
  match s.config.unimplPolicy with
  | .strictFail => raiseHalt (.unimplemented i.mnemonic s.pc) (fetched s)
  | .permissiveSkip =>
    skipOperands i.mode ((fetched s).emit (.unimplementedMnemonic i.mnemonic s.pc))

/-- What the engine has decided before dispatch. -/
inductive Prepared where
  /-- there is no step -/
  | noStep (f : Fault)
  /-- the step is over without a handler -/
  | done (t : State)
  /-- the handler of the instruction runs on this state -/
  | run (i : Instr) (t : State)
  deriving DecidableEq, Repr

/-- The checks in the order of 60_exceptions.md R174: run state, decode, `UNIMPLEMENTED`; then the handler,
with PC at the opcode address plus 1 (40_engine.md R74). -/
def prepare (s : State) : Prepared :=
  match s.runState with
  | .unreset => .noStep .notReset
  | .halted r => .noStep (.alreadyHalted r)
  | .running =>
    match decode (fetchBytes s) with
    | .reject _ => .done (decodeFailure s)
    | .ok i _ =>
      if isUnimplemented s i.mnemonic then .done (handleUnimplemented i s) else .run i (fetched s)

/-- The cause codes of the halts (60_exceptions.md R170). -/
def haltCode : HaltReason → Nat
  | .brk _ => 0
  | .decodeError _ _ => 1
  | .unimplemented _ _ => 2
  | .resolverMisuse _ _ => 3

/-- The cause code of a diagnostic (60_exceptions.md R170). -/
def diagnosticCode : Diagnostic → Nat
  | .unimplementedMnemonic _ _ => 16

/-- The address a halt reason records: the opcode's (60_exceptions.md R170, R175). -/
def haltAddr : HaltReason → Word
  | .brk addr => addr
  | .decodeError _ addr => addr
  | .unimplemented _ addr => addr
  | .resolverMisuse _ addr => addr

/-- The memory of a state with three bytes of an instruction at PC, for `State.withFetchWord`. -/
def placeInstruction (nbits w : Nat) (s : State) : Memory :=
  s.mem.writeBytes s.pc (tableBytes nbits w)

end Sys2Proof.Machine
end

