-- ==== Sys2Proof/Machine/Step.lean ====
section
/-! DEFINITION. One step of the machine (spec 40_engine.md R74), and an instruction placed where it is fetched. -/

namespace Sys2Proof.Machine

/-- One step: what `prepare` decides, and the handler of the instruction where it asks for one. -/
def step (s : State) : Host.Outcome State Fault Refusal :=
  match prepare s with
  | .noStep f => .fault f
  | .done t => .next t
  | .run i t => exec i t

/-- `s` with an instruction's bytes stored where `step` fetches its next instruction (assumption 7). -/
def State.withFetchWord (s : State) (nbits w : Nat) : State := s.setMem (placeInstruction nbits w s)

end Sys2Proof.Machine
end

