-- ==== Sys2Proof/Machine/HostOps.lean ====
section
/-! DEFINITION. The host's operations between steps (spec 40_engine.md R85 to R87): construct, load, reset, run,
inspect and poke. -/

namespace Sys2Proof.Machine

/-- `construct(INIT_MEM)`: memory as given, Unreset, no diagnostics (10_state.md R34). The registers have no
defined value: they are whatever `junk` holds (assumption 5). -/
def State.construct (config : Config) (initMem : Memory) (junk : State) : State :=
  { junk with mem := initMem, runState := .unreset, diagnostics := [], config := config }

/-- `load(bytes)`: refused beyond 0x8000 bytes; else the copy to 0x8000, then the reset vector
(20_memory.md R52). -/
def State.load (bytes : List Byte) (s : State) : Option State :=
  if bytes.length ≤ 0x8000 then
    some (s.setMem ((s.mem.writeBytes 0x8000 bytes).writeU16 0xFFFC 0x8000))
  else none

/-- `reset()`: from any run state (70_reset_and_hazards.md R187, R188). -/
def State.hostReset (s : State) : State :=
  { s with a := 0x00, x := 0x00, y := 0x00, p := 0x00, sp := 0xFD, pc := s.readU16 0xFFFC,
           runState := .running }

/-- What `run` answers (40_engine.md R85; 60_exceptions.md R170). -/
inductive RunOutcome where
  | halted (reason : HaltReason)
  | outOfFuel
  /-- no step was possible: the run was asked of a state that is not Running -/
  | noStep (f : Fault)
  | refused (r : Refusal)
  deriving DecidableEq, Repr

/-- `run(fuel)`: steps while Running and at most `fuel` of them (40_engine.md R85; assumption 12). -/
def run : Nat → State → RunOutcome × State
  | 0, s =>
    match s.runState with
    | .running => (.outOfFuel, s)
    | .unreset => (.noStep .notReset, s)
    | .halted r => (.noStep (.alreadyHalted r), s)
  | fuel + 1, s =>
    match step s with
    | .fault f => (.noStep f, s)
    | .refused r => (.refused r, s)
    | .next t =>
      match t.runState with
      | .halted r => (.halted r, t)
      | _ => run fuel t

/-- The registers the host reads and writes (40_engine.md R87). -/
inductive Reg where
  | A | X | Y | S | PC | P
  deriving DecidableEq, Repr

/-- The host's read of a register: nothing before the first reset (10_state.md R34; assumption 13). -/
def State.inspectReg (r : Reg) (s : State) : Option Nat :=
  match s.runState with
  | .unreset => none
  | _ =>
    match r with
    | .A => some s.a.toNat
    | .X => some s.x.toNat
    | .Y => some s.y.toNat
    | .S => some s.sp.toNat
    | .PC => some s.pc.toNat
    | .P => some s.p.toNat

/-- The host's read of a memory cell; the run state and the diagnostics log are read as fields (R87). -/
def State.inspectMem (a : Word) (s : State) : Byte := s.readByte a

/-- What the host may write between steps (R87): a register, a bit of P, a memory cell. -/
inductive Poke where
  | reg (r : Reg) (v : Nat)
  | bit (f : Flag) (b : Bool)
  | cell (a : Word) (v : Nat)
  deriving DecidableEq, Repr

/-- The host's write: the value given, reduced to the width (R87). -/
def State.poke (w : Poke) (s : State) : State :=
  match w with
  | .reg .A v => s.setA (BitVec.ofNat 8 v)
  | .reg .X v => s.setX (BitVec.ofNat 8 v)
  | .reg .Y v => s.setY (BitVec.ofNat 8 v)
  | .reg .S v => s.setSp (BitVec.ofNat 8 v)
  | .reg .PC v => s.setPc (BitVec.ofNat 16 v)
  | .reg .P v => s.setP (BitVec.ofNat 8 v)
  | .bit f b => s.setFlag f b
  | .cell a v => s.writeByte a (BitVec.ofNat 8 v)

end Sys2Proof.Machine
end

