-- ==== Sys2Proof/Safety.lean ====
section
/-! DEFINITION. What counts as a safe state and a safe run, and the terms the claims about the machine use. They
are written from the spec's words, not from the meanings they speak of. -/

namespace Sys2Proof.Machine

/-! ## States and runs -/

/-- The memory is in its canonical form: the invariant behind every claim about a stored value. -/
abbrev State.Canonical (s : State) : Prop := s.mem.wf = true

/-- Bits 4 and 5 of P are 0 (10_state.md R25). -/
abbrev State.BreakBitsClear (s : State) : Prop := s.flag .B = false ∧ s.flag .B2 = false

/-- `t` is reached from `s` in exactly `n` steps. -/
inductive StepsTo : Nat → State → State → Prop where
  | refl (s : State) : StepsTo 0 s s
  | tail {n : Nat} {s t u : State} : StepsTo n s t → step t = .next u → StepsTo (n + 1) s u

/-- A halt that is a failure and not the normal end of a run (60_exceptions.md R170, R171). -/
def HaltReason.isFatal : HaltReason → Bool
  | .brk _ => false
  | .decodeError _ _ | .unimplemented _ _ | .resolverMisuse _ _ => true

/-- A state no fatal halt has ended: running, or halted by BRK (60_exceptions.md R169 to R171). -/
def State.isSafe (s : State) : Bool :=
  match s.runState with
  | .unreset => true
  | .running => true
  | .halted r => !r.isFatal

/-! ## What an instruction does -/

/-- The flags of `t` are those of `s` but for the listed ones, which have the listed values. -/
def FlagsAfter (s t : State) (written : List (Flag × Bool)) : Prop :=
  ∀ f, t.flag f = (written.lookup f).getD (s.flag f)

/-- Of the bytes of memory only the one at `a` may differ between `s` and `t`, and it holds `v`. The value is
claimed of a canonical memory, the invariant every step keeps. -/
def StoresOnly (s t : State) (a : Word) (v : Byte) : Prop :=
  (s.Canonical → t.readByte a = v) ∧ ∀ b, b ≠ a → t.readByte b = s.readByte b

/-- `v` is the byte an operand stands for: the immediate byte, or the byte at its address
(41_addressing.md R107). -/
def OperandIs (o : Operand) (s : State) (v : Byte) : Prop :=
  resolve o s = some (.imm v) ∨ ∃ ea, resolve o s = some (.addr ea) ∧ v = s.readByte ea

/-- PC after an instruction that does not redirect: the opcode address plus its length (40_engine.md R80). -/
def nextPc (i : Instr) (s : State) : Word := opcodeAddr s + BitVec.ofNat 16 i.length

/-- `i` completes from `s`: the next state is `expected` in everything but P, and of the flags just the listed
ones are written. -/
def CompletesAs (i : Instr) (s expected : State) (written : List (Flag × Bool)) : Prop :=
  ∃ t, exec i s = .next t ∧ t = { expected with p := t.p } ∧ FlagsAfter s t written

/-- `i` completes from `s` with `v` stored at the address of its operand and the listed flags written: no other
byte, register or flag changes, and PC moves to the next instruction. -/
def CompletesStoring (i : Instr) (s : State) (v : Byte → Byte) (written : Byte → List (Flag × Bool)) :
    Prop :=
  ∃ ea t, resolve i.operand s = some (.addr ea) ∧ exec i s = .next t ∧
    t = { s with mem := t.mem, p := t.p, pc := nextPc i s } ∧
    StoresOnly s t ea (v (s.readByte ea)) ∧ FlagsAfter s t (written (s.readByte ea))

/-- The Z and N of a result (10_state.md R23). -/
def zn (r : Byte) : List (Flag × Bool) := [(.Z, r == 0), (.N, r.msb)]

/-- The stack byte at an index, taken modulo 256: 0x0100 + index (10_state.md R16; 20_memory.md R58). -/
def stackCell (index : Nat) : Word := BitVec.ofNat 16 (0x0100 + index % 256)

/-- The target of `PC <- target` where the instruction redirects, from the state on entry to its handler
(40_engine.md R79; 46_control_transfer.md R147 to R159); none where it does not. -/
def redirectTarget (i : Instr) (s : State) : Option Word :=
  let branchTo (off : Byte) : Word := BitVec.ofInt 16 (s.pc.toNat + 1 + off.toInt)
  let pulledFrom (index : Nat) : Word :=
    BitVec.ofNat 16 ((s.readByte (stackCell (index + 1))).toNat * 256 +
      (s.readByte (stackCell index)).toNat)
  match i with
  | .bpl off => if s.flag .N then none else some (branchTo off)
  | .bmi off => if s.flag .N then some (branchTo off) else none
  | .bvc off => if s.flag .V then none else some (branchTo off)
  | .bvs off => if s.flag .V then some (branchTo off) else none
  | .bcc off => if s.flag .C then none else some (branchTo off)
  | .bcs off => if s.flag .C then some (branchTo off) else none
  | .bne off => if s.flag .Z then none else some (branchTo off)
  | .beq off => if s.flag .Z then some (branchTo off) else none
  | .jmp o => effectiveAddr o s
  | .jsr target => some target
  | .rts => some (pulledFrom (s.sp.toNat + 1) + 1)
  | .rti => some (pulledFrom (s.sp.toNat + 2))
  | .lda _ | .ldx _ | .ldy _ | .sta _ | .stx _ | .sty _ | .tax | .tay | .tsx
  | .txa | .txs | .tya | .pha | .php | .pla | .plp | .adc _ | .sbc _
  | .cmp _ | .cpx _ | .cpy _ | .inc _ | .inx | .iny | .dec _ | .dex | .dey
  | .and _ | .ora _ | .eor _ | .bit _ | .asl _ | .lsr _ | .rol _ | .ror _ | .clc
  | .sec | .cli | .sei | .clv | .cld | .sed | .nop | .brk => none

/-- The machine's answer with one flag of the next state set to 0, to compare two runs that may differ in
that flag alone. -/
def forgetFlag (f : Flag) : Result → Result
  | .next t => .next (t.setFlag f false)
  | .fault r => .fault r
  | .refused r => .refused r

/-! ## Encodings -/

/-- The "Encodings" line of a rule: the modes an instruction has are the listed ones, and in each its bytes are
the listed opcode, then the operand bytes, low byte first (30_encoding.md R59, R62). -/
def Encodes (i : Operand → Instr) (line : List (Mode × Byte)) : Prop :=
  (∀ o, (i o).wellFormed = true ↔ o.mode ∈ line.map Prod.fst) ∧
    ∀ o op, (o.mode, op) ∈ line → encode (i o) = op :: o.bytes

/-- The bytes 30_encoding.md R65 lists as absent from the opcode table. -/
def absentBytes : List Byte :=
  [0x02, 0x03, 0x04, 0x07, 0x0B, 0x0C, 0x0F, 0x12, 0x13, 0x14, 0x17, 0x1A, 0x1B, 0x1C, 0x1F] ++
  [0x22, 0x23, 0x27, 0x2B, 0x2F, 0x32, 0x33, 0x34, 0x37, 0x3A, 0x3B, 0x3C, 0x3F, 0x42, 0x43] ++
  [0x44, 0x47, 0x4B, 0x4F, 0x52, 0x53, 0x54, 0x57, 0x5A, 0x5B, 0x5C, 0x5F, 0x62, 0x63, 0x64] ++
  [0x67, 0x6B, 0x6F, 0x72, 0x73, 0x74, 0x77, 0x7A, 0x7B, 0x7C, 0x7F, 0x80, 0x82, 0x83, 0x87] ++
  [0x89, 0x8B, 0x8F, 0x92, 0x93, 0x97, 0x9B, 0x9C, 0x9E, 0x9F, 0xA3, 0xA7, 0xAB, 0xAF, 0xB2] ++
  [0xB3, 0xB7, 0xBB, 0xBF, 0xC2, 0xC3, 0xC7, 0xCB, 0xCF, 0xD2, 0xD3, 0xD4, 0xD7, 0xDA, 0xDB] ++
  [0xDC, 0xDF, 0xE2, 0xE3, 0xE7, 0xEB, 0xEF, 0xF2, 0xF3, 0xF4, 0xF7, 0xFA, 0xFB, 0xFC, 0xFF]

end Sys2Proof.Machine
end

