-- ==== Sys2Proof/Certificates/Slice0/Obligations.lean ====
section
/-! DEFINITION. The statements for the provers, from the numbered rules of the spec. -/

open Sys2Proof Sys2Proof.Machine

/-! ## Encoding and decoding -/

/-- Every well-formed instruction, with every operand, decodes back from its bytes, whatever bytes follow
(30_encoding.md R59, R62, R64 against the "Encodings" lines of R109 to R168). -/
def Obligations.DecodeOfEncodeIsTheInstruction : Prop :=
  ∀ (i : Instr) (rest : List Byte), i.wellFormed = true → decode (encode i ++ rest) = .ok i rest

/-- Whatever decodes is a well-formed instruction, and its bytes are the ones it was decoded from
(30_encoding.md R60). -/
def Obligations.EncodeOfDecodeIsTheBytes : Prop :=
  ∀ (bytes : List Byte) (i : Instr) (rest : List Byte), decode bytes = .ok i rest →
    i.wellFormed = true ∧ encode i ++ rest = bytes

/-- The 105 bytes R65 lists, and no others, are rejected as absent, and fetching one halts with DecodeError
(30_encoding.md R65). -/
def Obligations.AbsentBytesAreRejectedAndHalt : Prop :=
  (∀ (op : Byte) (rest : List Byte),
    decode (op :: rest) = .reject (.absentOpcode op) ↔ op ∈ absentBytes) ∧
  ∀ s : State, s.runState = .running → s.readByte s.pc ∈ absentBytes →
    ∃ t, step s = .next t ∧ t.runState = .halted (.decodeError (s.readByte s.pc) s.pc)

/-- The words of R72, written out byte by byte, decode to the instructions they stand for and are their
encodings (30_encoding.md R72). -/
def Obligations.WordsOfTheSpecsExamplesDecode : Prop :=
  ∀ rest : List Byte,
    (decode (0xA9 :: 0x00 :: rest) = .ok (.lda (.immediate 0x00)) rest ∧
      decode (0xA9 :: 0x80 :: rest) = .ok (.lda (.immediate 0x80)) rest ∧
      decode (0xA9 :: 0x05 :: rest) = .ok (.lda (.immediate 0x05)) rest ∧
      decode (0xAA :: rest) = .ok .tax rest ∧
      decode (0x00 :: rest) = .ok .brk rest ∧
      decode (0x85 :: 0x10 :: rest) = .ok (.sta (.zeroPage 0x10)) rest) ∧
    encode (.lda (.immediate 0x00)) = [0xA9, 0x00] ∧ encode (.lda (.immediate 0x80)) = [0xA9, 0x80] ∧
    encode (.lda (.immediate 0x05)) = [0xA9, 0x05] ∧ encode .tax = [0xAA] ∧ encode .brk = [0x00] ∧
    encode (.sta (.zeroPage 0x10)) = [0x85, 0x10]

/-- The first byte alone fixes mnemonic, mode and length: two byte strings that share it decode alike, and each
uses up as many bytes as the length says (30_encoding.md R61, R68). -/
def Obligations.OpcodeByteAloneFixesModeAndLength : Prop :=
  ∀ (op : Byte) (bs cs : List Byte) (i j : Instr) (r q : List Byte),
    decode (op :: bs) = .ok i r → decode (op :: cs) = .ok j q →
    i.mnemonic = j.mnemonic ∧ i.mode = j.mode ∧ i.length = j.length ∧
      (op :: bs).length = i.length + r.length

/-- The operand of the instruction at PC is assembled from the bytes after the opcode, at PC + 1 and PC + 2
modulo 65536, the word operands little-endian (30_encoding.md R62, R63). -/
def Obligations.OperandsAreAssembledFromTheFollowingBytes : Prop :=
  ∀ (s : State) (i : Instr) (rest : List Byte), decode (fetchBytes s) = .ok i rest →
    let b1 := s.readByte (s.pc + 1)
    let b2 := s.readByte (s.pc + 2)
    let w := BitVec.ofNat 16 (b2.toNat * 256 + b1.toNat)
    (i.mode = .noAddressing → i.operand = .noAddressing) ∧
    (i.mode = .immediate → i.operand = .immediate b1) ∧
    (i.mode = .zeroPage → i.operand = .zeroPage b1) ∧
    (i.mode = .zeroPageX → i.operand = .zeroPageX b1) ∧
    (i.mode = .zeroPageY → i.operand = .zeroPageY b1) ∧
    (i.mode = .indexedIndirect → i.operand = .indexedIndirect b1) ∧
    (i.mode = .indirectIndexed → i.operand = .indirectIndexed b1) ∧
    (i.mode = .relative → i.operand = .relative b1) ∧
    (i.mode = .absolute → i.operand = .absolute w) ∧
    (i.mode = .absoluteX → i.operand = .absoluteX w) ∧
    (i.mode = .absoluteY → i.operand = .absoluteY w) ∧
    (i.mode = .indirect → i.operand = .indirect w)

/-! ## The address resolver -/

/-- Zero-page modes: the address is the byte, or the byte plus the index modulo 256 (41_addressing.md R94 to
R96). -/
def Obligations.ZeroPageModesAddInEightBits : Prop :=
  ∀ (zp : Byte) (s : State),
    (∃ ea, resolve (.zeroPage zp) s = some (.addr ea) ∧ ea.toNat = zp.toNat) ∧
    (∃ ea, resolve (.zeroPageX zp) s = some (.addr ea) ∧ ea.toNat = (zp.toNat + s.x.toNat) % 256) ∧
    (∃ ea, resolve (.zeroPageY zp) s = some (.addr ea) ∧ ea.toNat = (zp.toNat + s.y.toNat) % 256)

/-- Absolute modes: the address is the word, or the word plus the index modulo 65536 (41_addressing.md R98 to
R100). -/
def Obligations.AbsoluteModesAddInSixteenBits : Prop :=
  ∀ (w : Word) (s : State),
    (∃ ea, resolve (.absolute w) s = some (.addr ea) ∧ ea.toNat = w.toNat) ∧
    (∃ ea, resolve (.absoluteX w) s = some (.addr ea) ∧
      ea.toNat = (w.toNat + s.x.toNat) % 65536) ∧
    (∃ ea, resolve (.absoluteY w) s = some (.addr ea) ∧
      ea.toNat = (w.toNat + s.y.toNat) % 65536)

/-- Indirect: the word at the pointer, its high byte from the next address, or from the start of the pointer's
page when `JMP_IND_PAGE_WRAP` is set and the pointer ends in 0xFF (41_addressing.md R101). -/
def Obligations.IndirectReadsTheWordAtThePointer : Prop :=
  ∀ (ptr : Word) (s : State), ∃ ea, resolve (.indirect ptr) s = some (.addr ea) ∧
    ea.toNat = (s.readByte ptr).toNat + 256 *
      (if s.config.jmpIndPageWrap = true ∧ ptr.toNat % 256 = 255
       then s.readByte (BitVec.ofNat 16 (ptr.toNat / 256 * 256))
       else s.readByte (BitVec.ofNat 16 (ptr.toNat + 1))).toNat

/-- IndexedIndirect adds X to the pointer's address before the dereference, IndirectIndexed adds Y to the word
after it; the pointer's two bytes come from the zero page, wrapping there (41_addressing.md R102, R103). -/
def Obligations.ZeroPagePointersWrapInTheZeroPage : Prop :=
  ∀ (zp : Byte) (s : State),
    let zeroPageByte (n : Nat) : Nat := (s.readByte (BitVec.ofNat 16 (n % 256))).toNat
    (∃ ea, resolve (.indexedIndirect zp) s = some (.addr ea) ∧
      ea.toNat = zeroPageByte (zp.toNat + s.x.toNat) +
        256 * zeroPageByte (zp.toNat + s.x.toNat + 1)) ∧
    (∃ ea, resolve (.indirectIndexed zp) s = some (.addr ea) ∧
      ea.toNat = (zeroPageByte zp.toNat + 256 * zeroPageByte (zp.toNat + 1) + s.y.toNat) % 65536)

/-- Immediate is the byte itself; Relative is the address after the offset byte plus the signed offset modulo
65536; NoAddressing resolves to nothing (41_addressing.md R93, R97). -/
def Obligations.RelativeTargetsAreSignedAndWrap : Prop :=
  ∀ (b : Byte) (s : State),
    resolve (.immediate b) s = some (.imm b) ∧
    resolve .noAddressing s = none ∧
    ∃ t, resolve (.relative b) s = some (.target t) ∧
      (t.toNat : Int) = ((s.pc.toNat : Int) + 1 + b.toInt) % 65536

/-! ## Memory, flags and the adder -/

/-- A word written is the word read, at every address, the top of memory included, and only its two cells
change (20_memory.md R46). The value is claimed of canonical memories, which every step keeps. -/
def Obligations.WordWriteThenReadReturnsTheWord : Prop :=
  ∀ (m : Memory) (a v : Word),
    (m.wf = true → (m.writeU16 a v).readU16 a = v) ∧
    ∀ b, b ≠ a → b ≠ a + 1 → (m.writeU16 a v).readByte b = m.readByte b

/-- The named flag operation sets or clears one bit of P by its mask, reads back, and perturbs no other bit and
no other state (10_state.md R22). -/
def Obligations.SetFlagPerturbsNothingElse : Prop :=
  ∀ (s : State) (f : Flag) (b : Bool),
    s.setFlag f b = { s with p := if b then s.p ||| ((1 : Byte) <<< f.bit)
                                  else s.p &&& ~~~((1 : Byte) <<< f.bit) } ∧
    (s.setFlag f b).flag f = b ∧
    ∀ k, k ≠ f.bit → (s.setFlag f b).p.getLsbD k = s.p.getLsbD k

/-- The adder: carry and result are the full 9-bit sum, overflow is the sign rule, and it is set exactly when
the signed sum leaves -128..127 (44_arithmetic.md R125). -/
def Obligations.AdderIsTheFullNineBitSum : Prop :=
  ∀ (a m : Byte) (cin : Bool),
    let r := addCore a m cin
    r.result.toNat + 256 * r.carry.toNat = a.toNat + m.toNat + cin.toNat ∧
    (r.overflow = true ↔ a.msb = m.msb ∧ r.result.msb ≠ a.msb) ∧
    r.overflow = ((a ^^^ r.result) &&& (m ^^^ r.result)).msb ∧
    (r.overflow = true ↔
      a.toInt + m.toInt + cin.toNat < -128 ∨ 127 < a.toInt + m.toInt + cin.toNat)

/-! ## Loads and stores -/

/-- LDA, LDX and LDY, in every mode their rules list: the register takes the operand's byte, Z and N follow it,
and nothing else changes but PC (42_load_store.md R109 to R111). -/
def Obligations.LoadsCopyTheOperandAndSetZN : Prop :=
    Encodes .lda [(.immediate, 0xA9), (.zeroPage, 0xA5), (.zeroPageX, 0xB5), (.absolute, 0xAD),
    (.absoluteX, 0xBD), (.absoluteY, 0xB9), (.indexedIndirect, 0xA1), (.indirectIndexed, 0xB1)] ∧
    Encodes .ldx [(.immediate, 0xA2), (.zeroPage, 0xA6), (.zeroPageY, 0xB6), (.absolute, 0xAE),
    (.absoluteY, 0xBE)] ∧
    Encodes .ldy [(.immediate, 0xA0), (.zeroPage, 0xA4), (.zeroPageX, 0xB4), (.absolute, 0xAC),
    (.absoluteX, 0xBC)] ∧
  ∀ (o : Operand) (s : State),
    ((Instr.lda o).wellFormed = true → ∃ v, OperandIs o s v ∧
      CompletesAs (.lda o) s { s with a := v, pc := nextPc (.lda o) s } (zn v)) ∧
    ((Instr.ldx o).wellFormed = true → ∃ v, OperandIs o s v ∧
      CompletesAs (.ldx o) s { s with x := v, pc := nextPc (.ldx o) s } (zn v)) ∧
    ((Instr.ldy o).wellFormed = true → ∃ v, OperandIs o s v ∧
      CompletesAs (.ldy o) s { s with y := v, pc := nextPc (.ldy o) s } (zn v))

/-- STA, STX and STY, in every mode their rules list: the register's byte is stored at the operand's address and
no flag, register or other byte changes (42_load_store.md R112 to R114). -/
def Obligations.StoresWriteTheRegisterAndNoFlag : Prop :=
    Encodes .sta [(.zeroPage, 0x85), (.zeroPageX, 0x95), (.absolute, 0x8D), (.absoluteX, 0x9D),
    (.absoluteY, 0x99), (.indexedIndirect, 0x81), (.indirectIndexed, 0x91)] ∧
    Encodes .stx [(.zeroPage, 0x86), (.zeroPageY, 0x96), (.absolute, 0x8E)] ∧
    Encodes .sty [(.zeroPage, 0x84), (.zeroPageX, 0x94), (.absolute, 0x8C)] ∧
  ∀ (o : Operand) (s : State),
    ((Instr.sta o).wellFormed = true →
      CompletesStoring (.sta o) s (fun _ => s.a) (fun _ => [])) ∧
    ((Instr.stx o).wellFormed = true →
      CompletesStoring (.stx o) s (fun _ => s.x) (fun _ => [])) ∧
    ((Instr.sty o).wellFormed = true →
      CompletesStoring (.sty o) s (fun _ => s.y) (fun _ => []))

/-! ## Transfers and stack -/

/-- The transfers copy one register to another; all but TXS set Z and N from the byte copied, TXS writes no flag
(43_transfer_stack.md R115 to R120). -/
def Obligations.TransfersCopyAndOnlyTXSKeepsFlags : Prop :=
  (encode .tax = [0xAA] ∧ encode .tay = [0xA8] ∧ encode .tsx = [0xBA] ∧ encode .txa = [0x8A] ∧
    encode .txs = [0x9A] ∧ encode .tya = [0x98]) ∧
  ∀ s : State,
    CompletesAs .tax s { s with x := s.a, pc := nextPc .tax s } (zn s.a) ∧
    CompletesAs .tay s { s with y := s.a, pc := nextPc .tay s } (zn s.a) ∧
    CompletesAs .tsx s { s with x := s.sp, pc := nextPc .tsx s } (zn s.sp) ∧
    CompletesAs .txa s { s with a := s.x, pc := nextPc .txa s } (zn s.x) ∧
    CompletesAs .txs s { s with sp := s.x, pc := nextPc .txs s } [] ∧
    CompletesAs .tya s { s with a := s.y, pc := nextPc .tya s } (zn s.y)

/-- PHA and PHP store one byte at 0x0100 + S, then decrement S modulo 256; PHP's byte is P with bits 4 and 5
set, and P keeps its value (43_transfer_stack.md R121, R122). -/
def Obligations.PushesStoreAtTheStackByteThenDecrement : Prop :=
  (encode .pha = [0x48] ∧ encode .php = [0x08]) ∧
  ∀ s : State,
    (∃ t, exec .pha s = .next t ∧
      t = { s with mem := t.mem, sp := BitVec.ofNat 8 (s.sp.toNat + 255), pc := nextPc .pha s } ∧
      StoresOnly s t (stackCell s.sp.toNat) s.a) ∧
    (∃ t, exec .php s = .next t ∧
      t = { s with mem := t.mem, sp := BitVec.ofNat 8 (s.sp.toNat + 255), pc := nextPc .php s } ∧
      StoresOnly s t (stackCell s.sp.toNat) (s.p ||| 0x30))

/-- PLA and PLP increment S modulo 256, then read 0x0100 + S; PLA sets A, Z and N, PLP takes every flag but B
and B2 from the byte (43_transfer_stack.md R123, R124). -/
def Obligations.PullsIncrementThenReadTheStackByte : Prop :=
  (encode .pla = [0x68] ∧ encode .plp = [0x28]) ∧
  ∀ s : State,
    let v := s.readByte (stackCell (s.sp.toNat + 1))
    CompletesAs .pla s
      { s with a := v, sp := BitVec.ofNat 8 (s.sp.toNat + 1), pc := nextPc .pla s } (zn v) ∧
    exec .plp s = .next { s with p := (v &&& 0xCF) ||| (s.p &&& 0x30),
                                 sp := BitVec.ofNat 8 (s.sp.toNat + 1), pc := nextPc .plp s } ∧
    CompletesAs .plp s { s with sp := BitVec.ofNat 8 (s.sp.toNat + 1), pc := nextPc .plp s }
      [(.N, v.getLsbD 7), (.V, v.getLsbD 6), (.D, v.getLsbD 3), (.I, v.getLsbD 2),
       (.Z, v.getLsbD 1), (.C, v.getLsbD 0)]

/-- A pull after a push gives the byte back and restores S: PLA after PHA, PLP after PHP but for B and B2
(41_addressing.md R105, R106; 43_transfer_stack.md R121 to R124). Of a canonical memory. -/
def Obligations.PullAfterPushRestores : Prop :=
  ∀ (s t : State) (v : Byte) (p : Byte) (pc : Word), s.Canonical →
    (exec .pha s = .next t → ∃ u, exec .pla { t with a := v, p := p, pc := pc } = .next u ∧
      u.a = s.a ∧ u.sp = s.sp ∧ u.mem = t.mem) ∧
    (exec .php s = .next t → ∃ u, exec .plp { t with a := v, p := p, pc := pc } = .next u ∧
      u.sp = s.sp ∧ u.mem = t.mem ∧
      ∀ f, f ≠ .B → f ≠ .B2 → u.flag f = s.flag f)

/-! ## Arithmetic, compares, increments and decrements -/

/-- ADC, in every mode its rule lists, when it is not refused: A takes the sum with carry, C and V are the
adder's, Z and N follow, whatever D holds under `binary` (44_arithmetic.md R127). -/
def Obligations.AdcAddsWithCarry : Prop :=
    Encodes .adc [(.immediate, 0x69), (.zeroPage, 0x65), (.zeroPageX, 0x75), (.absolute, 0x6D),
    (.absoluteX, 0x7D), (.absoluteY, 0x79), (.indexedIndirect, 0x61), (.indirectIndexed, 0x71)] ∧
  ∀ (o : Operand) (s : State), (Instr.adc o).wellFormed = true →
    ¬ (s.config.decimalArith = .refuse ∧ s.flag .D = true) →
    ∃ v, OperandIs o s v ∧
      let sum := s.a.toNat + v.toNat + (s.flag .C).toNat
      let r := BitVec.ofNat 8 sum
      CompletesAs (.adc o) s { s with a := r, pc := nextPc (.adc o) s }
        ([(.C, decide (255 < sum)), (.V, (s.a.msb == v.msb) && (r.msb != s.a.msb))] ++ zn r)

/-- SBC, in every mode its rule lists, when it is not refused: A takes the difference with borrow, C is 1 when
there is no borrow, V is signed overflow, Z and N follow (44_arithmetic.md R128). -/
def Obligations.SbcSubtractsWithBorrow : Prop :=
    Encodes .sbc [(.immediate, 0xE9), (.zeroPage, 0xE5), (.zeroPageX, 0xF5), (.absolute, 0xED),
    (.absoluteX, 0xFD), (.absoluteY, 0xF9), (.indexedIndirect, 0xE1), (.indirectIndexed, 0xF1)] ∧
  ∀ (o : Operand) (s : State), (Instr.sbc o).wellFormed = true →
    ¬ (s.config.decimalArith = .refuse ∧ s.flag .D = true) →
    ∃ v, OperandIs o s v ∧
      let borrow : Nat := if s.flag .C then 0 else 1
      let r := s.a - v - BitVec.ofNat 8 borrow
      CompletesAs (.sbc o) s { s with a := r, pc := nextPc (.sbc o) s }
        ([(.C, decide (v.toNat + borrow ≤ s.a.toNat)),
          (.V, decide (s.a.toInt - v.toInt - borrow < -128 ∨ 127 < s.a.toInt - v.toInt - borrow))]
          ++ zn r)

/-- Decimal mode: ADC and SBC are refused exactly when D is set under `refuse`, with the opcode's address; else,
whatever D holds under `binary`, the well-formed ones complete with the binary sum or difference
(44_arithmetic.md R126). A step that meets a refusal is refused, and a run ends there in the state before it. That
an ill-formed ADC or SBC is refused before its mode is checked is the model's choice (assumption 11), and so is
what `run` answers (assumption 12). -/
def Obligations.DecimalModeRefusesOnlyWhenAsked : Prop :=
  (∀ (o : Operand) (s : State) (r : Refusal),
    (exec (.adc o) s = .refused r ↔
      s.config.decimalArith = .refuse ∧ s.flag .D = true ∧ r = .decimalMode (opcodeAddr s)) ∧
    (exec (.sbc o) s = .refused r ↔
      s.config.decimalArith = .refuse ∧ s.flag .D = true ∧ r = .decimalMode (opcodeAddr s))) ∧
  (∀ (o : Operand) (s : State), s.config.decimalArith = .binary ∨ s.flag .D = false →
    ((Instr.adc o).wellFormed = true → ∃ v t, OperandIs o s v ∧ exec (.adc o) s = .next t ∧
      t.a = BitVec.ofNat 8 (s.a.toNat + v.toNat + (s.flag .C).toNat) ∧ t.runState = s.runState) ∧
    ((Instr.sbc o).wellFormed = true → ∃ v t, OperandIs o s v ∧ exec (.sbc o) s = .next t ∧
      t.a = s.a - v - BitVec.ofNat 8 (if s.flag .C then 0 else 1) ∧ t.runState = s.runState)) ∧
  ∀ (s : State) (i : Instr) (rest : List Byte), s.runState = .running →
    s.config.decimalArith = .refuse → s.flag .D = true →
    decode (fetchBytes s) = .ok i rest → i.mnemonic = .ADC ∨ i.mnemonic = .SBC →
    s.config.unimplemented.contains i.mnemonic = false →
    step s = .refused (.decimalMode s.pc) ∧
    ∀ fuel, run (fuel + 1) s = (.refused (.decimalMode s.pc), s)

/-- CMP, CPX and CPY: C is the unsigned order, Z equality, N bit 7 of the difference; no register and no V
(44_arithmetic.md R129 to R132). -/
def Obligations.ComparesWriteThreeFlagsAndNoRegister : Prop :=
    Encodes .cmp [(.immediate, 0xC9), (.zeroPage, 0xC5), (.zeroPageX, 0xD5), (.absolute, 0xCD),
    (.absoluteX, 0xDD), (.absoluteY, 0xD9), (.indexedIndirect, 0xC1), (.indirectIndexed, 0xD1)] ∧
    Encodes .cpx [(.immediate, 0xE0), (.zeroPage, 0xE4), (.absolute, 0xEC)] ∧
    Encodes .cpy [(.immediate, 0xC0), (.zeroPage, 0xC4), (.absolute, 0xCC)] ∧
  ∀ (o : Operand) (s : State),
    let flags (r v : Byte) : List (Flag × Bool) :=
      [(.C, decide (v.toNat ≤ r.toNat)), (.Z, r == v), (.N, (r - v).msb)]
    ((Instr.cmp o).wellFormed = true → ∃ v, OperandIs o s v ∧
      CompletesAs (.cmp o) s { s with pc := nextPc (.cmp o) s } (flags s.a v)) ∧
    ((Instr.cpx o).wellFormed = true → ∃ v, OperandIs o s v ∧
      CompletesAs (.cpx o) s { s with pc := nextPc (.cpx o) s } (flags s.x v)) ∧
    ((Instr.cpy o).wellFormed = true → ∃ v, OperandIs o s v ∧
      CompletesAs (.cpy o) s { s with pc := nextPc (.cpy o) s } (flags s.y v))

/-- INC and DEC: the byte at the operand's address changes by one modulo 256, Z and N follow it, and no other
byte, register or flag changes (44_arithmetic.md R133, R136). -/
def Obligations.IncAndDecModifyOneByte : Prop :=
    Encodes .inc [(.zeroPage, 0xE6), (.zeroPageX, 0xF6), (.absolute, 0xEE), (.absoluteX, 0xFE)] ∧
    Encodes .dec [(.zeroPage, 0xC6), (.zeroPageX, 0xD6), (.absolute, 0xCE), (.absoluteX, 0xDE)] ∧
  ∀ (o : Operand) (s : State),
    ((Instr.inc o).wellFormed = true →
      CompletesStoring (.inc o) s (fun v => BitVec.ofNat 8 (v.toNat + 1))
        (fun v => zn (BitVec.ofNat 8 (v.toNat + 1)))) ∧
    ((Instr.dec o).wellFormed = true →
      CompletesStoring (.dec o) s (fun v => BitVec.ofNat 8 (v.toNat + 255))
        (fun v => zn (BitVec.ofNat 8 (v.toNat + 255))))

/-- INX, INY, DEX and DEY: the register changes by one modulo 256, Z and N follow (44_arithmetic.md R134, R135,
R137, R138). -/
def Obligations.IndexIncrementsWrap : Prop :=
  (encode .inx = [0xE8] ∧ encode .iny = [0xC8] ∧ encode .dex = [0xCA] ∧ encode .dey = [0x88]) ∧
  ∀ s : State,
    let up (r : Byte) : Byte := BitVec.ofNat 8 (r.toNat + 1)
    let down (r : Byte) : Byte := BitVec.ofNat 8 (r.toNat + 255)
    CompletesAs .inx s { s with x := up s.x, pc := nextPc .inx s } (zn (up s.x)) ∧
    CompletesAs .iny s { s with y := up s.y, pc := nextPc .iny s } (zn (up s.y)) ∧
    CompletesAs .dex s { s with x := down s.x, pc := nextPc .dex s } (zn (down s.x)) ∧
    CompletesAs .dey s { s with y := down s.y, pc := nextPc .dey s } (zn (down s.y))

/-! ## Logic, bit test, shifts and rotates -/

/-- AND, ORA and EOR: A takes the bitwise result, Z and N follow (45_logic_shift.md R139 to R141). -/
def Obligations.LogicCombinesAWithTheOperand : Prop :=
    Encodes .and [(.immediate, 0x29), (.zeroPage, 0x25), (.zeroPageX, 0x35), (.absolute, 0x2D),
    (.absoluteX, 0x3D), (.absoluteY, 0x39), (.indexedIndirect, 0x21), (.indirectIndexed, 0x31)] ∧
    Encodes .ora [(.immediate, 0x09), (.zeroPage, 0x05), (.zeroPageX, 0x15), (.absolute, 0x0D),
    (.absoluteX, 0x1D), (.absoluteY, 0x19), (.indexedIndirect, 0x01), (.indirectIndexed, 0x11)] ∧
    Encodes .eor [(.immediate, 0x49), (.zeroPage, 0x45), (.zeroPageX, 0x55), (.absolute, 0x4D),
    (.absoluteX, 0x5D), (.absoluteY, 0x59), (.indexedIndirect, 0x41), (.indirectIndexed, 0x51)] ∧
  ∀ (o : Operand) (s : State),
    ((Instr.and o).wellFormed = true → ∃ v, OperandIs o s v ∧
      CompletesAs (.and o) s { s with a := s.a &&& v, pc := nextPc (.and o) s } (zn (s.a &&& v))) ∧
    ((Instr.ora o).wellFormed = true → ∃ v, OperandIs o s v ∧
      CompletesAs (.ora o) s { s with a := s.a ||| v, pc := nextPc (.ora o) s } (zn (s.a ||| v))) ∧
    ((Instr.eor o).wellFormed = true → ∃ v, OperandIs o s v ∧
      CompletesAs (.eor o) s { s with a := s.a ^^^ v, pc := nextPc (.eor o) s } (zn (s.a ^^^ v)))

/-- BIT: Z from A and the operand, N and V from bits 7 and 6 of the operand, nothing else
(45_logic_shift.md R142). -/
def Obligations.BitTestsWithoutWritingA : Prop :=
    Encodes .bit [(.zeroPage, 0x24), (.absolute, 0x2C)] ∧
  ∀ (o : Operand) (s : State), (Instr.bit o).wellFormed = true → ∃ v, OperandIs o s v ∧
    CompletesAs (.bit o) s { s with pc := nextPc (.bit o) s }
      [(.Z, (s.a &&& v) == 0), (.N, v.getLsbD 7), (.V, v.getLsbD 6)]

/-- ASL and LSR, on A in the accumulator form and on memory in the others: the byte doubles or halves, C is the
bit shifted out, Z and N follow (45_logic_shift.md R143, R144). -/
def Obligations.ShiftsMoveTheOuterBitIntoCarry : Prop :=
    Encodes .asl [(.noAddressing, 0x0A), (.zeroPage, 0x06), (.zeroPageX, 0x16), (.absolute, 0x0E),
    (.absoluteX, 0x1E)] ∧
    Encodes .lsr [(.noAddressing, 0x4A), (.zeroPage, 0x46), (.zeroPageX, 0x56), (.absolute, 0x4E),
    (.absoluteX, 0x5E)] ∧
  ∀ (o : Operand) (s : State),
    let left (v : Byte) : Byte := BitVec.ofNat 8 (2 * v.toNat)
    let right (v : Byte) : Byte := BitVec.ofNat 8 (v.toNat / 2)
    let leftFlags (v : Byte) := [(Flag.C, decide (128 ≤ v.toNat))] ++ zn (left v)
    let rightFlags (v : Byte) := [(Flag.C, decide (v.toNat % 2 = 1))] ++ zn (right v)
    CompletesAs (.asl .noAddressing) s
      { s with a := left s.a, pc := nextPc (.asl .noAddressing) s } (leftFlags s.a) ∧
    CompletesAs (.lsr .noAddressing) s
      { s with a := right s.a, pc := nextPc (.lsr .noAddressing) s } (rightFlags s.a) ∧
    ((Instr.asl o).wellFormed = true → o ≠ .noAddressing →
      CompletesStoring (.asl o) s left leftFlags) ∧
    ((Instr.lsr o).wellFormed = true → o ≠ .noAddressing →
      CompletesStoring (.lsr o) s right rightFlags)

/-- ROL and ROR, on A in the accumulator form and on memory in the others: the old carry enters at one end, C is
the bit that leaves at the other, Z and N follow (45_logic_shift.md R145, R146). -/
def Obligations.RotatesGoThroughCarry : Prop :=
    Encodes .rol [(.noAddressing, 0x2A), (.zeroPage, 0x26), (.zeroPageX, 0x36), (.absolute, 0x2E),
    (.absoluteX, 0x3E)] ∧
    Encodes .ror [(.noAddressing, 0x6A), (.zeroPage, 0x66), (.zeroPageX, 0x76), (.absolute, 0x6E),
    (.absoluteX, 0x7E)] ∧
  ∀ (o : Operand) (s : State),
    let cin := (s.flag .C).toNat
    let left (v : Byte) : Byte := BitVec.ofNat 8 (2 * v.toNat + cin)
    let right (v : Byte) : Byte := BitVec.ofNat 8 (v.toNat / 2 + 128 * cin)
    let leftFlags (v : Byte) := [(Flag.C, decide (128 ≤ v.toNat))] ++ zn (left v)
    let rightFlags (v : Byte) := [(Flag.C, decide (v.toNat % 2 = 1))] ++ zn (right v)
    CompletesAs (.rol .noAddressing) s
      { s with a := left s.a, pc := nextPc (.rol .noAddressing) s } (leftFlags s.a) ∧
    CompletesAs (.ror .noAddressing) s
      { s with a := right s.a, pc := nextPc (.ror .noAddressing) s } (rightFlags s.a) ∧
    ((Instr.rol o).wellFormed = true → o ≠ .noAddressing →
      CompletesStoring (.rol o) s left leftFlags) ∧
    ((Instr.ror o).wellFormed = true → o ≠ .noAddressing →
      CompletesStoring (.ror o) s right rightFlags)

/-! ## Control transfer -/

/-- The eight conditional branches: PC moves to the signed target when the condition holds and else to the next
instruction; nothing else changes (46_control_transfer.md R147 to R155). -/
def Obligations.BranchesRedirectWhenTheirFlagAgrees : Prop :=
  ∀ (off : Byte) (s : State),
    let after (f : Flag) (b : Bool) : State :=
      { s with pc := if s.flag f = b then BitVec.ofInt 16 (s.pc.toNat + 1 + off.toInt)
                     else opcodeAddr s + 2 }
    (encode (.bpl off) = [0x10, off] ∧ exec (.bpl off) s = .next (after .N false)) ∧
    (encode (.bmi off) = [0x30, off] ∧ exec (.bmi off) s = .next (after .N true)) ∧
    (encode (.bvc off) = [0x50, off] ∧ exec (.bvc off) s = .next (after .V false)) ∧
    (encode (.bvs off) = [0x70, off] ∧ exec (.bvs off) s = .next (after .V true)) ∧
    (encode (.bcc off) = [0x90, off] ∧ exec (.bcc off) s = .next (after .C false)) ∧
    (encode (.bcs off) = [0xB0, off] ∧ exec (.bcs off) s = .next (after .C true)) ∧
    (encode (.bne off) = [0xD0, off] ∧ exec (.bne off) s = .next (after .Z false)) ∧
    (encode (.beq off) = [0xF0, off] ∧ exec (.beq off) s = .next (after .Z true))

/-- JMP, Absolute and Indirect: PC becomes the address of the mode and nothing else changes
(46_control_transfer.md R156). -/
def Obligations.JmpSetsPcToTheAddress : Prop :=
    Encodes .jmp [(.absolute, 0x4C), (.indirect, 0x6C)] ∧
  ∀ (o : Operand) (s : State), (Instr.jmp o).wellFormed = true →
    ∃ ea, resolve o s = some (.addr ea) ∧ exec (.jmp o) s = .next { s with pc := ea }

/-- JSR pushes the address of its own last byte, high byte first, S falls by 2 modulo 256, PC becomes the
target, and nothing else changes (46_control_transfer.md R157). The values stored are claimed of a canonical
memory. -/
def Obligations.JsrPushesTheReturnAddressAndJumps : Prop :=
  ∀ (target : Word) (s : State),
    encode (.jsr target) = [0x20, BitVec.ofNat 8 target.toNat, BitVec.ofNat 8 (target.toNat / 256)] ∧
    ∃ t, exec (.jsr target) s = .next t ∧
      t = { s with mem := t.mem, sp := BitVec.ofNat 8 (s.sp.toNat + 254), pc := target } ∧
      (s.Canonical →
        (t.readByte (stackCell s.sp.toNat)).toNat = (opcodeAddr s + 2).toNat / 256 ∧
        (t.readByte (stackCell (s.sp.toNat + 255))).toNat = (opcodeAddr s + 2).toNat % 256) ∧
      ∀ b, b ≠ stackCell s.sp.toNat → b ≠ stackCell (s.sp.toNat + 255) →
        t.readByte b = s.readByte b

/-- RTS pulls the low byte, then the high byte, and adds 1; RTI pulls P (all but B and B2), then the word, with
no 1 added; neither writes memory (46_control_transfer.md R158, R159). -/
def Obligations.ReturnsPullTheProgramCounter : Prop :=
  (encode .rts = [0x60] ∧ encode .rti = [0x40]) ∧
  ∀ s : State,
    let byte (n : Nat) : Byte := s.readByte (stackCell (s.sp.toNat + n))
    exec .rts s = .next
      { s with sp := BitVec.ofNat 8 (s.sp.toNat + 2),
               pc := BitVec.ofNat 16 ((byte 2).toNat * 256 + (byte 1).toNat + 1) } ∧
    exec .rti s = .next
      { s with p := ((byte 1) &&& 0xCF) ||| (s.p &&& 0x30),
               sp := BitVec.ofNat 8 (s.sp.toNat + 3),
               pc := BitVec.ofNat 16 ((byte 3).toNat * 256 + (byte 2).toNat) }

/-- RTS after JSR returns to the instruction after the JSR with S restored (46_control_transfer.md R157, R158).
Of a canonical memory. -/
def Obligations.RtsAfterJsrReturnsToTheNextInstruction : Prop :=
  ∀ (target pc : Word) (s t : State), s.Canonical → exec (.jsr target) s = .next t →
    exec .rts { t with pc := pc } =
      .next { s with mem := t.mem, pc := nextPc (.jsr target) s }

/-! ## Flag control, NOP and BRK -/

/-- Each flag-control instruction writes its one flag and nothing else (47_flags_misc.md R160 to R166). -/
def Obligations.FlagControlWritesOneFlag : Prop :=
  (encode .clc = [0x18] ∧ encode .sec = [0x38] ∧ encode .cli = [0x58] ∧ encode .sei = [0x78] ∧
    encode .clv = [0xB8] ∧ encode .cld = [0xD8] ∧ encode .sed = [0xF8]) ∧
  ∀ s : State,
    CompletesAs .clc s { s with pc := nextPc .clc s } [(.C, false)] ∧
    CompletesAs .sec s { s with pc := nextPc .sec s } [(.C, true)] ∧
    CompletesAs .cli s { s with pc := nextPc .cli s } [(.I, false)] ∧
    CompletesAs .sei s { s with pc := nextPc .sei s } [(.I, true)] ∧
    CompletesAs .clv s { s with pc := nextPc .clv s } [(.V, false)] ∧
    CompletesAs .cld s { s with pc := nextPc .cld s } [(.D, false)] ∧
    CompletesAs .sed s { s with pc := nextPc .sed s } [(.D, true)]

/-- NOP moves PC to the next instruction and does nothing else (47_flags_misc.md R167). -/
def Obligations.NopOnlyAdvances : Prop :=
  encode .nop = [0xEA] ∧ ∀ s : State, exec .nop s = .next { s with pc := nextPc .nop s }

/-- BRK, of length 1: the run state becomes Halted(Brk(addr)), PC stays at the opcode address plus 1, nothing is
pushed and no flag changes (47_flags_misc.md R168; 40_engine.md R81). -/
def Obligations.BrkHaltsAtItsAddress : Prop :=
  encode .brk = [0x00] ∧ Instr.length .brk = 1 ∧
  (∀ s : State, exec .brk s = .next { s with runState := .halted (.brk (opcodeAddr s)) }) ∧
  ∀ s : State, s.runState = .running → s.readByte s.pc = 0x00 →
    s.config.unimplemented.contains .BRK = false →
    step s = .next { s with pc := s.pc + 1, runState := .halted (.brk s.pc) }

/-! ## The engine -/

/-- A step runs the decoded instruction: when the bytes at PC decode to `i` and the engine does not treat its
mnemonic as unimplemented, the step is `exec i` with PC one past the opcode (40_engine.md R74 to R77). -/
def Obligations.StepRunsTheDecodedInstruction : Prop :=
  ∀ (s : State) (i : Instr) (rest : List Byte), s.runState = .running →
    decode [s.readByte s.pc, s.readByte (s.pc + 1), s.readByte (s.pc + 2)] = .ok i rest →
    s.config.unimplemented.contains i.mnemonic = false →
    step s = exec i { s with pc := s.pc + 1 }

/-- A step is defined only in Running: in Unreset it is NotReset, in Halted it is AlreadyHalted, and in neither
is there a next state (40_engine.md R73). -/
def Obligations.NoStepUnlessRunning : Prop :=
  (∀ s : State, s.runState = .unreset → step s = .fault .notReset) ∧
  (∀ (s : State) (r : HaltReason), s.runState = .halted r → step s = .fault (.alreadyHalted r)) ∧
  ∀ (s : State) (f : Fault), step s = .fault f → s.runState ≠ .running

/-- Decode failure: an absent opcode byte halts with the byte and its address, PC one past it, and nothing else
changes (40_engine.md R82). -/
def Obligations.DecodeFailureHaltsWithByteAndAddress : Prop :=
  ∀ s : State, s.runState = .running → s.readByte s.pc ∈ absentBytes →
    step s = .next { s with pc := s.pc + 1,
                            runState := .halted (.decodeError (s.readByte s.pc) s.pc) }

/-- A mnemonic in UNIMPLEMENTED: under strict_fail the run halts with PC one past the opcode, under
permissive_skip one diagnostic is logged and the instruction skipped; with the set empty neither happens
(40_engine.md R83). -/
def Obligations.UnimplementedMnemonicsFollowThePolicy : Prop :=
  (∀ (s : State) (i : Instr) (rest : List Byte), s.runState = .running →
    decode (fetchBytes s) = .ok i rest → i.mnemonic ∈ s.config.unimplemented →
    (s.config.unimplPolicy = .strictFail →
      step s = .next { s with pc := s.pc + 1,
                              runState := .halted (.unimplemented i.mnemonic s.pc) }) ∧
    (s.config.unimplPolicy = .permissiveSkip →
      step s = .next
        { s with pc := s.pc + BitVec.ofNat 16 i.length,
                 diagnostics := s.diagnostics ++ [.unimplementedMnemonic i.mnemonic s.pc] })) ∧
  ∀ (s t : State), s.config.unimplemented = [] → step s = .next t →
    t.diagnostics = s.diagnostics ∧ ∀ m a, t.runState ≠ .halted (.unimplemented m a)

/-- Halts are precise: a step that halts leaves exactly the state after the opcode fetch, with the reason, and
the reason records the opcode's address (60_exceptions.md R175). -/
def Obligations.HaltsArePrecise : Prop :=
  ∀ (s t : State) (r : HaltReason), step s = .next t → t.runState = .halted r →
    t = { s with pc := s.pc + 1, runState := .halted r } ∧ haltAddr r = s.pc

/-- Resolver misuse: a handler given a mode its rule does not list only sets the run state, and no step of the
machine ever comes to it (40_engine.md R84). ADC and SBC check the decimal refusal first, the model's choice
(assumption 11). -/
def Obligations.ResolverMisuseIsNeverReachedByAStep : Prop :=
  (∀ (i : Instr) (s : State), i.wellFormed = false →
    (i.mnemonic = .ADC ∨ i.mnemonic = .SBC → ¬ (s.config.decimalArith = .refuse ∧ s.flag .D = true)) →
    exec i s = .next { s with runState := .halted (.resolverMisuse i.mode (opcodeAddr s)) }) ∧
  ∀ (s t : State) (mode : Mode) (addr : Word), step s = .next t →
    t.runState ≠ .halted (.resolverMisuse mode addr)

/-- After a step that does not halt, PC is the redirect target where the instruction redirects and else the
opcode address plus the length (40_engine.md R80). -/
def Obligations.ProgramCounterAfterAStep : Prop :=
  ∀ (s t : State) (i : Instr) (rest : List Byte), decode (fetchBytes s) = .ok i rest →
    s.config.unimplemented.contains i.mnemonic = false → step s = .next t → t.runState = .running →
    t.pc = (redirectTarget i { s with pc := s.pc + 1 }).getD (s.pc + BitVec.ofNat 16 i.length)

/-! ## Rules about the whole machine -/

/-- Carry and Overflow are written by the listed instructions and by no other (10_state.md R24). -/
def Obligations.OnlyTheListedInstructionsWriteCarryOrOverflow : Prop :=
  ∀ (i : Instr) (s t : State), exec i s = .next t →
    (i.mnemonic ∉ [.ADC, .SBC, .CMP, .CPX, .CPY, .ASL, .LSR, .ROL, .ROR, .CLC, .SEC, .PLP, .RTI] →
      t.flag .C = s.flag .C) ∧
    (i.mnemonic ∉ [.ADC, .SBC, .BIT, .CLV, .PLP, .RTI] → t.flag .V = s.flag .V)

/-- The other flags: the "written by" column of the table of P (10_state.md R21); no instruction writes B or
B2. -/
def Obligations.OnlyTheListedInstructionsWriteTheOtherFlags : Prop :=
  ∀ (i : Instr) (s t : State), exec i s = .next t →
    (i.mnemonic ∉ [.LDA, .LDX, .LDY, .TAX, .TAY, .TSX, .TXA, .TYA, .PLA, .ADC, .SBC, .AND, .ORA, .EOR,
        .BIT, .CMP, .CPX, .CPY, .INC, .DEC, .INX, .INY, .DEX, .DEY, .ASL, .LSR, .ROL, .ROR, .PLP,
        .RTI] → t.flag .N = s.flag .N ∧ t.flag .Z = s.flag .Z) ∧
    (i.mnemonic ∉ [.SED, .CLD, .PLP, .RTI] → t.flag .D = s.flag .D) ∧
    (i.mnemonic ∉ [.SEI, .CLI, .PLP, .RTI] → t.flag .I = s.flag .I) ∧
    t.flag .B = s.flag .B ∧ t.flag .B2 = s.flag .B2

/-- Registers and memory: the "written by" column of the register table, with A in the accumulator forms only,
and the instructions that store (10_state.md R18; 20_memory.md R47). -/
def Obligations.OnlyTheListedInstructionsWriteRegistersOrMemory : Prop :=
  ∀ (i : Instr) (s t : State), exec i s = .next t →
    (i.mnemonic ∉ [.LDA, .TXA, .TYA, .PLA, .ADC, .SBC, .AND, .ORA, .EOR] →
      ¬ (i.mnemonic ∈ [.ASL, .LSR, .ROL, .ROR] ∧ i.mode = .noAddressing) → t.a = s.a) ∧
    (i.mnemonic ∉ [.LDX, .TAX, .TSX, .INX, .DEX] → t.x = s.x) ∧
    (i.mnemonic ∉ [.LDY, .TAY, .INY, .DEY] → t.y = s.y) ∧
    (i.mnemonic ∉ [.TXS, .PHA, .PHP, .PLA, .PLP, .JSR, .RTS, .RTI] → t.sp = s.sp) ∧
    (i.mnemonic ∉ [.STA, .STX, .STY, .PHA, .PHP, .INC, .DEC, .ASL, .LSR, .ROL, .ROR, .JSR] →
      t.mem = s.mem) ∧
    (i.mnemonic ∈ [.ASL, .LSR, .ROL, .ROR] → i.mode = .noAddressing → t.mem = s.mem)

/-- The diagnostics log: a step appends at most one record, that of an unimplemented mnemonic under
permissive_skip, and neither an instruction nor reset, load or a host write touches it; no instruction reads it;
it is empty at construction (10_state.md R32). -/
def Obligations.OnlyUnimplementedMnemonicsAreLogged : Prop :=
  (∀ s t : State, step s = .next t → t.diagnostics = s.diagnostics ∨
    ∃ m, m ∈ s.config.unimplemented ∧ s.config.unimplPolicy = .permissiveSkip ∧
      t.diagnostics = s.diagnostics ++ [.unimplementedMnemonic m s.pc]) ∧
  (∀ (i : Instr) (s t : State), exec i s = .next t → t.diagnostics = s.diagnostics ∧
    ∀ log, exec i { s with diagnostics := log } = .next { t with diagnostics := log }) ∧
  (∀ s : State, s.hostReset.diagnostics = s.diagnostics) ∧
  (∀ (bytes : List Byte) (s t : State), s.load bytes = some t → t.diagnostics = s.diagnostics) ∧
  (∀ (w : Poke) (s : State), (s.poke w).diagnostics = s.diagnostics) ∧
  ∀ (config : Config) (m : Memory) (junk : State), (State.construct config m junk).diagnostics = []

/-- No step changes the parameters, and only Running and Halted follow a step (00_scope.md R6; 10_state.md R12,
R33). That the parameters ride in State is the model's choice (assumption 2). -/
def Obligations.StepsKeepTheParameters : Prop :=
  ∀ s t : State, step s = .next t →
    t.config = s.config ∧ (t.runState = .running ∨ ∃ r, t.runState = .halted r)

/-- Flags nothing depends on: two runs of an instruction that differ in B, B2, I, or (under `binary`) D answer
alike in everything but that flag. PHP alone shows I and D, in the byte it pushes (10_state.md R25, R26,
R27). -/
def Obligations.InertFlagsNeverChangeAResult : Prop :=
  ∀ (i : Instr) (s : State) (f : Flag) (b : Bool),
    (f = .B ∨ f = .B2 → forgetFlag f (exec i (s.setFlag f b)) = forgetFlag f (exec i s)) ∧
    (f = .I ∨ (f = .D ∧ s.config.decimalArith = .binary) → i.mnemonic ≠ .PHP →
      forgetFlag f (exec i (s.setFlag f b)) = forgetFlag f (exec i s)) ∧
    (f = .I ∨ f = .D → ∃ t u, exec .php (s.setFlag f b) = .next t ∧ exec .php s = .next u ∧
      t.setFlag f false = { u.setFlag f false with mem := t.mem } ∧
      ∀ a, a ≠ stackCell s.sp.toNat → t.readByte a = u.readByte a)

/-- Every step keeps the memory canonical: addresses strictly rising in the 64 KiB, no cell that equals what an
unlisted address reads as (10_state.md R29; the form is the model's own, assumption 3). -/
def Obligations.EveryStepKeepsMemoryCanonical : Prop :=
  ∀ s t : State, s.Canonical → step s = .next t → t.Canonical

/-- The state after reset meets the invariants: canonical memory, break bits clear, Running
(assumption 3; 10_state.md R25, R35). -/
def Obligations.ResetMeetsTheInvariants : Prop :=
  State.reset.Canonical ∧ State.reset.BreakBitsClear ∧ State.reset.runState = .running

/-- Bits 4 and 5 of P: reset clears them, PHP pushes them as 1 and leaves P, PLP and RTI keep them, no step
changes them, and so they are 0 in every state reached from a reset state by steps; the host may write them
(10_state.md R25). -/
def Obligations.BreakBitsStayClearFromReset : Prop :=
  (∀ s : State, s.hostReset.BreakBitsClear) ∧
  (∀ s : State, ∃ t, exec .php s = .next t ∧ t.p = s.p ∧
    (s.Canonical → t.readByte (stackCell s.sp.toNat) = s.p ||| 0x30)) ∧
  (∀ s : State, ∃ t, exec .plp s = .next t ∧
    t.p = (s.readByte (stackCell (s.sp.toNat + 1)) &&& 0xCF) ||| (s.p &&& 0x30)) ∧
  (∀ s : State, ∃ t, exec .rti s = .next t ∧
    t.p = (s.readByte (stackCell (s.sp.toNat + 1)) &&& 0xCF) ||| (s.p &&& 0x30)) ∧
  (∀ s t : State, step s = .next t → t.flag .B = s.flag .B ∧ t.flag .B2 = s.flag .B2) ∧
  (∀ (n : Nat) (s t : State), StepsTo n s.hostReset t → t.BreakBitsClear) ∧
  ∀ (s : State) (f : Flag) (b : Bool), f = .B ∨ f = .B2 → (s.poke (.bit f b)).flag f = b

/-! ## The host's operations -/

/-- `run(fuel)` answers OutOfFuel exactly when `fuel` steps can be taken and leave the state Running, and
Halted(reason) exactly when a step within the fuel halts, with the state that step leaves (40_engine.md R85). That
it answers neither from a state that is not Running is the model's choice (assumption 12). -/
def Obligations.RunStopsAtAHaltOrAtItsFuel : Prop :=
  ∀ (fuel : Nat) (s t : State),
    (run fuel s = (.outOfFuel, t) ↔ StepsTo fuel s t ∧ t.runState = .running) ∧
    ∀ r, run fuel s = (.halted r, t) ↔
      t.runState = .halted r ∧ ∃ n u, n < fuel ∧ StepsTo n s u ∧ step u = .next t

/-- A run that stopped for OutOfFuel is resumable: a run of `m + n` steps is the run of `m` and, where that ran
out of fuel, the run of `n` from where it stopped (40_engine.md R85, R88). What `run` answers from a state that is
not Running, or at a refused step, is the model's choice (assumption 12). -/
def Obligations.RunIsResumable : Prop :=
  ∀ (m n : Nat) (s : State), run (m + n) s =
    match run m s with
    | (.outOfFuel, t) => run n t
    | r => r

/-- `load(bytes)`: refused exactly beyond 0x8000 bytes; else the bytes stand from 0x8000 on but for the reset
vector, which holds 0x8000; no other byte and nothing else changes (20_memory.md R52). The values are claimed
of a canonical memory. -/
def Obligations.LoadCopiesTheProgramAndSetsTheVector : Prop :=
  ∀ (bytes : List Byte) (s : State),
    (0x8000 < bytes.length → s.load bytes = none) ∧
    (bytes.length ≤ 0x8000 → ∃ t, s.load bytes = some t ∧ t = { s with mem := t.mem } ∧
      (s.Canonical → t.Canonical ∧ t.readByte 0xFFFC = 0x00 ∧ t.readByte 0xFFFD = 0x80 ∧
        ∀ (k : Nat) (h : k < bytes.length), k ≠ 0x7FFC → k ≠ 0x7FFD →
          t.readByte (BitVec.ofNat 16 (0x8000 + k)) = bytes[k]) ∧
      ∀ a : Word, (a.toNat < 0x8000 ∨ 0x8000 + bytes.length ≤ a.toNat) → a ≠ 0xFFFC → a ≠ 0xFFFD →
        t.readByte a = s.readByte a)

/-- After `load(program)` then `reset()`: PC is 0x8000 and the program stands at 0x8000, for a program that ends
below the reset vector (70_reset_and_hazards.md R190). Of a canonical memory. -/
def Obligations.ResetAfterLoadStartsAtTheProgram : Prop :=
  ∀ (program : List Byte) (s t : State), s.Canonical → program.length ≤ 0x7FFC →
    s.load program = some t →
    t.hostReset.pc = 0x8000 ∧ t.hostReset.runState = .running ∧
    ∀ (k : Nat) (h : k < program.length),
      t.hostReset.readByte (BitVec.ofNat 16 (0x8000 + k)) = program[k]

/-- `reset()`, from every run state: A, X, Y and P are 0, S is 0xFD, PC is the little-endian word at 0xFFFC, the
run state is Running, and memory and the diagnostics log are unchanged (70_reset_and_hazards.md R187;
10_state.md R35). -/
def Obligations.ResetClearsRegistersAndLoadsTheVector : Prop :=
  ∀ s : State, s.hostReset =
    { s with a := 0x00, x := 0x00, y := 0x00, p := 0x00, sp := 0xFD,
             pc := BitVec.ofNat 16 ((s.readByte 0xFFFD).toNat * 256 + (s.readByte 0xFFFC).toNat),
             runState := .running }

/-- A host write, in every run state: it changes the one register, bit of P or cell it names to the value given,
reduced to its width, and nothing else, the run state, the diagnostics and the parameters included; after a reset
the host reads a written register back (40_engine.md R87). A cell is read back of a canonical memory. That the
parameters stand in State is the model's choice (assumption 2), and that a register is not read before the first
reset is too (assumption 13). -/
def Obligations.HostWritesTakeTheValueReduced : Prop :=
  ∀ (s : State),
    (∀ v : Nat,
      s.poke (.reg .A v) = { s with a := BitVec.ofNat 8 v } ∧
      s.poke (.reg .X v) = { s with x := BitVec.ofNat 8 v } ∧
      s.poke (.reg .Y v) = { s with y := BitVec.ofNat 8 v } ∧
      s.poke (.reg .S v) = { s with sp := BitVec.ofNat 8 v } ∧
      s.poke (.reg .PC v) = { s with pc := BitVec.ofNat 16 v } ∧
      s.poke (.reg .P v) = { s with p := BitVec.ofNat 8 v }) ∧
    (∀ (r : Reg) (v : Nat), s.runState ≠ .unreset →
      (s.poke (.reg r v)).inspectReg r = some (v % (if r = .PC then 65536 else 256)) ∧
      (∀ q, q ≠ r → (s.poke (.reg r v)).inspectReg q = s.inspectReg q) ∧
      (s.poke (.reg r v)).mem = s.mem) ∧
    (∀ (f : Flag) (b : Bool),
      s.poke (.bit f b) = { s with p := (s.poke (.bit f b)).p } ∧
      (s.poke (.bit f b)).flag f = b ∧
      ∀ g, g ≠ f → (s.poke (.bit f b)).flag g = s.flag g) ∧
    (∀ (a : Word) (v : Nat),
      s.poke (.cell a v) = { s with mem := (s.poke (.cell a v)).mem } ∧
      StoresOnly s (s.poke (.cell a v)) a (BitVec.ofNat 8 v) ∧
      ∀ q, (s.poke (.cell a v)).inspectReg q = s.inspectReg q) ∧
    ∀ w, (s.poke w).runState = s.runState ∧ (s.poke w).diagnostics = s.diagnostics ∧
      (s.poke w).config = s.config
end

