-- ==== Sys2Proof/Laws/Decode.lean ====
section
/-! SUPPORT. The opcode table and the rules' encodings agree: a byte is the opcode of a mnemonic in a mode exactly
when the table has that row (spec 30_encoding.md R60, R64). -/

namespace Sys2Proof

open Sys2Proof.Machine

/-- What the table says of an opcode that a rule lists. -/
theorem lookupOpcode_of_opcodeOf {m : Mnemonic} {mode : Mode} {op : Byte}
    (h : opcodeOf m mode = some op) :
    ∃ d, lookupOpcode op = some d ∧ d.mnemonic = m ∧ d.mode = mode ∧ d.lengthBytes = mode.length := by
  cases m <;> cases mode <;> first
    | exact absurd (show (none : Option Byte) = some op from h) (Option.some_ne_none op).symm
    | (obtain rfl := Option.some.inj h; exact ⟨_, rfl, rfl, rfl, rfl⟩)

/-- Every row of the table is an encoding its rule lists. -/
theorem opcodeTable_rows :
    ∀ d ∈ opcodeTable, opcodeOf d.mnemonic d.mode = some d.opcode ∧ d.lengthBytes = d.mode.length ∧
      d.mnemonic.modes.contains d.mode = true := by
  decide +kernel

/-- What a rule lists of an opcode that the table has. -/
theorem opcodeOf_of_lookupOpcode {op : Byte} {d : Descriptor} (h : lookupOpcode op = some d) :
    opcodeOf d.mnemonic d.mode = some op ∧ d.lengthBytes = d.mode.length ∧
      d.mnemonic.modes.contains d.mode = true := by
  have hp := List.find?_some h
  have hm := opcodeTable_rows d (List.mem_of_find?_eq_some h)
  simp only [beq_iff_eq] at hp
  rwa [hp] at hm

/-- The bytes of an operand put back together give the operand. -/
theorem Operand.assemble_bytes (o : Operand) :
    Operand.assemble o.mode (o.bytes.getD 0 0) (o.bytes.getD 1 0) = o := by
  cases o <;> first | rfl | simp [Operand.assemble, Operand.mode, Operand.bytes]

end Sys2Proof
end

