-- ==== Sys2Proof/Laws/State.lean ====
section
/-! SUPPORT. One lemma per field per update of `State`, so that no proof unfolds a record update. -/

namespace Sys2Proof.Machine

@[simp] theorem State.setA_a (s : State) (v : Byte) : (s.setA v).a = v := rfl
@[simp] theorem State.setA_x (s : State) (v : Byte) : (s.setA v).x = s.x := rfl
@[simp] theorem State.setA_y (s : State) (v : Byte) : (s.setA v).y = s.y := rfl
@[simp] theorem State.setA_sp (s : State) (v : Byte) : (s.setA v).sp = s.sp := rfl
@[simp] theorem State.setA_pc (s : State) (v : Byte) : (s.setA v).pc = s.pc := rfl
@[simp] theorem State.setA_p (s : State) (v : Byte) : (s.setA v).p = s.p := rfl
@[simp] theorem State.setA_mem (s : State) (v : Byte) : (s.setA v).mem = s.mem := rfl
@[simp] theorem State.setA_runState (s : State) (v : Byte) : (s.setA v).runState = s.runState := rfl
@[simp] theorem State.setA_diagnostics (s : State) (v : Byte) : (s.setA v).diagnostics = s.diagnostics := rfl
@[simp] theorem State.setA_config (s : State) (v : Byte) : (s.setA v).config = s.config := rfl

@[simp] theorem State.setX_a (s : State) (v : Byte) : (s.setX v).a = s.a := rfl
@[simp] theorem State.setX_x (s : State) (v : Byte) : (s.setX v).x = v := rfl
@[simp] theorem State.setX_y (s : State) (v : Byte) : (s.setX v).y = s.y := rfl
@[simp] theorem State.setX_sp (s : State) (v : Byte) : (s.setX v).sp = s.sp := rfl
@[simp] theorem State.setX_pc (s : State) (v : Byte) : (s.setX v).pc = s.pc := rfl
@[simp] theorem State.setX_p (s : State) (v : Byte) : (s.setX v).p = s.p := rfl
@[simp] theorem State.setX_mem (s : State) (v : Byte) : (s.setX v).mem = s.mem := rfl
@[simp] theorem State.setX_runState (s : State) (v : Byte) : (s.setX v).runState = s.runState := rfl
@[simp] theorem State.setX_diagnostics (s : State) (v : Byte) : (s.setX v).diagnostics = s.diagnostics := rfl
@[simp] theorem State.setX_config (s : State) (v : Byte) : (s.setX v).config = s.config := rfl

@[simp] theorem State.setY_a (s : State) (v : Byte) : (s.setY v).a = s.a := rfl
@[simp] theorem State.setY_x (s : State) (v : Byte) : (s.setY v).x = s.x := rfl
@[simp] theorem State.setY_y (s : State) (v : Byte) : (s.setY v).y = v := rfl
@[simp] theorem State.setY_sp (s : State) (v : Byte) : (s.setY v).sp = s.sp := rfl
@[simp] theorem State.setY_pc (s : State) (v : Byte) : (s.setY v).pc = s.pc := rfl
@[simp] theorem State.setY_p (s : State) (v : Byte) : (s.setY v).p = s.p := rfl
@[simp] theorem State.setY_mem (s : State) (v : Byte) : (s.setY v).mem = s.mem := rfl
@[simp] theorem State.setY_runState (s : State) (v : Byte) : (s.setY v).runState = s.runState := rfl
@[simp] theorem State.setY_diagnostics (s : State) (v : Byte) : (s.setY v).diagnostics = s.diagnostics := rfl
@[simp] theorem State.setY_config (s : State) (v : Byte) : (s.setY v).config = s.config := rfl

@[simp] theorem State.setSp_a (s : State) (v : Byte) : (s.setSp v).a = s.a := rfl
@[simp] theorem State.setSp_x (s : State) (v : Byte) : (s.setSp v).x = s.x := rfl
@[simp] theorem State.setSp_y (s : State) (v : Byte) : (s.setSp v).y = s.y := rfl
@[simp] theorem State.setSp_sp (s : State) (v : Byte) : (s.setSp v).sp = v := rfl
@[simp] theorem State.setSp_pc (s : State) (v : Byte) : (s.setSp v).pc = s.pc := rfl
@[simp] theorem State.setSp_p (s : State) (v : Byte) : (s.setSp v).p = s.p := rfl
@[simp] theorem State.setSp_mem (s : State) (v : Byte) : (s.setSp v).mem = s.mem := rfl
@[simp] theorem State.setSp_runState (s : State) (v : Byte) : (s.setSp v).runState = s.runState := rfl
@[simp] theorem State.setSp_diagnostics (s : State) (v : Byte) : (s.setSp v).diagnostics = s.diagnostics := rfl
@[simp] theorem State.setSp_config (s : State) (v : Byte) : (s.setSp v).config = s.config := rfl

@[simp] theorem State.setPc_a (s : State) (v : Word) : (s.setPc v).a = s.a := rfl
@[simp] theorem State.setPc_x (s : State) (v : Word) : (s.setPc v).x = s.x := rfl
@[simp] theorem State.setPc_y (s : State) (v : Word) : (s.setPc v).y = s.y := rfl
@[simp] theorem State.setPc_sp (s : State) (v : Word) : (s.setPc v).sp = s.sp := rfl
@[simp] theorem State.setPc_pc (s : State) (v : Word) : (s.setPc v).pc = v := rfl
@[simp] theorem State.setPc_p (s : State) (v : Word) : (s.setPc v).p = s.p := rfl
@[simp] theorem State.setPc_mem (s : State) (v : Word) : (s.setPc v).mem = s.mem := rfl
@[simp] theorem State.setPc_runState (s : State) (v : Word) : (s.setPc v).runState = s.runState := rfl
@[simp] theorem State.setPc_diagnostics (s : State) (v : Word) : (s.setPc v).diagnostics = s.diagnostics := rfl
@[simp] theorem State.setPc_config (s : State) (v : Word) : (s.setPc v).config = s.config := rfl

@[simp] theorem State.setP_a (s : State) (v : Byte) : (s.setP v).a = s.a := rfl
@[simp] theorem State.setP_x (s : State) (v : Byte) : (s.setP v).x = s.x := rfl
@[simp] theorem State.setP_y (s : State) (v : Byte) : (s.setP v).y = s.y := rfl
@[simp] theorem State.setP_sp (s : State) (v : Byte) : (s.setP v).sp = s.sp := rfl
@[simp] theorem State.setP_pc (s : State) (v : Byte) : (s.setP v).pc = s.pc := rfl
@[simp] theorem State.setP_p (s : State) (v : Byte) : (s.setP v).p = v := rfl
@[simp] theorem State.setP_mem (s : State) (v : Byte) : (s.setP v).mem = s.mem := rfl
@[simp] theorem State.setP_runState (s : State) (v : Byte) : (s.setP v).runState = s.runState := rfl
@[simp] theorem State.setP_diagnostics (s : State) (v : Byte) : (s.setP v).diagnostics = s.diagnostics := rfl
@[simp] theorem State.setP_config (s : State) (v : Byte) : (s.setP v).config = s.config := rfl

@[simp] theorem State.setMem_a (s : State) (m : Memory) : (s.setMem m).a = s.a := rfl
@[simp] theorem State.setMem_x (s : State) (m : Memory) : (s.setMem m).x = s.x := rfl
@[simp] theorem State.setMem_y (s : State) (m : Memory) : (s.setMem m).y = s.y := rfl
@[simp] theorem State.setMem_sp (s : State) (m : Memory) : (s.setMem m).sp = s.sp := rfl
@[simp] theorem State.setMem_pc (s : State) (m : Memory) : (s.setMem m).pc = s.pc := rfl
@[simp] theorem State.setMem_p (s : State) (m : Memory) : (s.setMem m).p = s.p := rfl
@[simp] theorem State.setMem_mem (s : State) (m : Memory) : (s.setMem m).mem = m := rfl
@[simp] theorem State.setMem_runState (s : State) (m : Memory) : (s.setMem m).runState = s.runState := rfl
@[simp] theorem State.setMem_diagnostics (s : State) (m : Memory) : (s.setMem m).diagnostics = s.diagnostics := rfl
@[simp] theorem State.setMem_config (s : State) (m : Memory) : (s.setMem m).config = s.config := rfl

@[simp] theorem State.setRunState_a (s : State) (r : RunState) : (s.setRunState r).a = s.a := rfl
@[simp] theorem State.setRunState_x (s : State) (r : RunState) : (s.setRunState r).x = s.x := rfl
@[simp] theorem State.setRunState_y (s : State) (r : RunState) : (s.setRunState r).y = s.y := rfl
@[simp] theorem State.setRunState_sp (s : State) (r : RunState) : (s.setRunState r).sp = s.sp := rfl
@[simp] theorem State.setRunState_pc (s : State) (r : RunState) : (s.setRunState r).pc = s.pc := rfl
@[simp] theorem State.setRunState_p (s : State) (r : RunState) : (s.setRunState r).p = s.p := rfl
@[simp] theorem State.setRunState_mem (s : State) (r : RunState) : (s.setRunState r).mem = s.mem := rfl
@[simp] theorem State.setRunState_runState (s : State) (r : RunState) : (s.setRunState r).runState = r := rfl
@[simp] theorem State.setRunState_diagnostics (s : State) (r : RunState) : (s.setRunState r).diagnostics = s.diagnostics := rfl
@[simp] theorem State.setRunState_config (s : State) (r : RunState) : (s.setRunState r).config = s.config := rfl

@[simp] theorem State.emit_a (s : State) (d : Diagnostic) : (s.emit d).a = s.a := rfl
@[simp] theorem State.emit_x (s : State) (d : Diagnostic) : (s.emit d).x = s.x := rfl
@[simp] theorem State.emit_y (s : State) (d : Diagnostic) : (s.emit d).y = s.y := rfl
@[simp] theorem State.emit_sp (s : State) (d : Diagnostic) : (s.emit d).sp = s.sp := rfl
@[simp] theorem State.emit_pc (s : State) (d : Diagnostic) : (s.emit d).pc = s.pc := rfl
@[simp] theorem State.emit_p (s : State) (d : Diagnostic) : (s.emit d).p = s.p := rfl
@[simp] theorem State.emit_mem (s : State) (d : Diagnostic) : (s.emit d).mem = s.mem := rfl
@[simp] theorem State.emit_runState (s : State) (d : Diagnostic) : (s.emit d).runState = s.runState := rfl
@[simp] theorem State.emit_diagnostics (s : State) (d : Diagnostic) : (s.emit d).diagnostics = s.diagnostics ++ [d] := rfl
@[simp] theorem State.emit_config (s : State) (d : Diagnostic) : (s.emit d).config = s.config := rfl

/-! ## Updates defined from these: the fields they keep -/

@[simp] theorem State.setFlag_a (s : State) (f : Flag) (b : Bool) : (s.setFlag f b).a = s.a := rfl
@[simp] theorem State.setFlag_x (s : State) (f : Flag) (b : Bool) : (s.setFlag f b).x = s.x := rfl
@[simp] theorem State.setFlag_y (s : State) (f : Flag) (b : Bool) : (s.setFlag f b).y = s.y := rfl
@[simp] theorem State.setFlag_sp (s : State) (f : Flag) (b : Bool) : (s.setFlag f b).sp = s.sp := rfl
@[simp] theorem State.setFlag_pc (s : State) (f : Flag) (b : Bool) : (s.setFlag f b).pc = s.pc := rfl
@[simp] theorem State.setFlag_mem (s : State) (f : Flag) (b : Bool) : (s.setFlag f b).mem = s.mem := rfl
@[simp] theorem State.setFlag_runState (s : State) (f : Flag) (b : Bool) : (s.setFlag f b).runState = s.runState := rfl
@[simp] theorem State.setFlag_diagnostics (s : State) (f : Flag) (b : Bool) : (s.setFlag f b).diagnostics = s.diagnostics := rfl
@[simp] theorem State.setFlag_config (s : State) (f : Flag) (b : Bool) : (s.setFlag f b).config = s.config := rfl

@[simp] theorem State.writeByte_a (s : State) (a : Word) (v : Byte) : (s.writeByte a v).a = s.a := rfl
@[simp] theorem State.writeByte_x (s : State) (a : Word) (v : Byte) : (s.writeByte a v).x = s.x := rfl
@[simp] theorem State.writeByte_y (s : State) (a : Word) (v : Byte) : (s.writeByte a v).y = s.y := rfl
@[simp] theorem State.writeByte_sp (s : State) (a : Word) (v : Byte) : (s.writeByte a v).sp = s.sp := rfl
@[simp] theorem State.writeByte_pc (s : State) (a : Word) (v : Byte) : (s.writeByte a v).pc = s.pc := rfl
@[simp] theorem State.writeByte_p (s : State) (a : Word) (v : Byte) : (s.writeByte a v).p = s.p := rfl
@[simp] theorem State.writeByte_runState (s : State) (a : Word) (v : Byte) : (s.writeByte a v).runState = s.runState := rfl
@[simp] theorem State.writeByte_diagnostics (s : State) (a : Word) (v : Byte) : (s.writeByte a v).diagnostics = s.diagnostics := rfl
@[simp] theorem State.writeByte_config (s : State) (a : Word) (v : Byte) : (s.writeByte a v).config = s.config := rfl

@[simp] theorem State.setFlag_p (s : State) (f : Flag) (b : Bool) :
    (s.setFlag f b).p = putFlag s.p f b := rfl
@[simp] theorem State.writeByte_mem (s : State) (a : Word) (v : Byte) :
    (s.writeByte a v).mem = s.mem.writeByte a v := rfl

@[simp] theorem setZN_a (s : State) (r : Byte) : (setZN r s).a = s.a := rfl
@[simp] theorem setZN_x (s : State) (r : Byte) : (setZN r s).x = s.x := rfl
@[simp] theorem setZN_y (s : State) (r : Byte) : (setZN r s).y = s.y := rfl
@[simp] theorem setZN_sp (s : State) (r : Byte) : (setZN r s).sp = s.sp := rfl
@[simp] theorem setZN_pc (s : State) (r : Byte) : (setZN r s).pc = s.pc := rfl
@[simp] theorem setZN_mem (s : State) (r : Byte) : (setZN r s).mem = s.mem := rfl
@[simp] theorem setZN_runState (s : State) (r : Byte) : (setZN r s).runState = s.runState := rfl
@[simp] theorem setZN_diagnostics (s : State) (r : Byte) : (setZN r s).diagnostics = s.diagnostics := rfl
@[simp] theorem setZN_config (s : State) (r : Byte) : (setZN r s).config = s.config := rfl

@[simp] theorem compareFlags_a (s : State) (r m : Byte) : (compareFlags r m s).a = s.a := rfl
@[simp] theorem compareFlags_x (s : State) (r m : Byte) : (compareFlags r m s).x = s.x := rfl
@[simp] theorem compareFlags_y (s : State) (r m : Byte) : (compareFlags r m s).y = s.y := rfl
@[simp] theorem compareFlags_sp (s : State) (r m : Byte) : (compareFlags r m s).sp = s.sp := rfl
@[simp] theorem compareFlags_pc (s : State) (r m : Byte) : (compareFlags r m s).pc = s.pc := rfl
@[simp] theorem compareFlags_mem (s : State) (r m : Byte) : (compareFlags r m s).mem = s.mem := rfl
@[simp] theorem compareFlags_runState (s : State) (r m : Byte) : (compareFlags r m s).runState = s.runState := rfl
@[simp] theorem compareFlags_diagnostics (s : State) (r m : Byte) : (compareFlags r m s).diagnostics = s.diagnostics := rfl
@[simp] theorem compareFlags_config (s : State) (r m : Byte) : (compareFlags r m s).config = s.config := rfl

@[simp] theorem bitFlags_a (s : State) (m : Byte) : (bitFlags m s).a = s.a := rfl
@[simp] theorem bitFlags_x (s : State) (m : Byte) : (bitFlags m s).x = s.x := rfl
@[simp] theorem bitFlags_y (s : State) (m : Byte) : (bitFlags m s).y = s.y := rfl
@[simp] theorem bitFlags_sp (s : State) (m : Byte) : (bitFlags m s).sp = s.sp := rfl
@[simp] theorem bitFlags_pc (s : State) (m : Byte) : (bitFlags m s).pc = s.pc := rfl
@[simp] theorem bitFlags_mem (s : State) (m : Byte) : (bitFlags m s).mem = s.mem := rfl
@[simp] theorem bitFlags_runState (s : State) (m : Byte) : (bitFlags m s).runState = s.runState := rfl
@[simp] theorem bitFlags_diagnostics (s : State) (m : Byte) : (bitFlags m s).diagnostics = s.diagnostics := rfl
@[simp] theorem bitFlags_config (s : State) (m : Byte) : (bitFlags m s).config = s.config := rfl

@[simp] theorem shiftFlags_a (s : State) (r : Shifted) : (shiftFlags r s).a = s.a := rfl
@[simp] theorem shiftFlags_x (s : State) (r : Shifted) : (shiftFlags r s).x = s.x := rfl
@[simp] theorem shiftFlags_y (s : State) (r : Shifted) : (shiftFlags r s).y = s.y := rfl
@[simp] theorem shiftFlags_sp (s : State) (r : Shifted) : (shiftFlags r s).sp = s.sp := rfl
@[simp] theorem shiftFlags_pc (s : State) (r : Shifted) : (shiftFlags r s).pc = s.pc := rfl
@[simp] theorem shiftFlags_mem (s : State) (r : Shifted) : (shiftFlags r s).mem = s.mem := rfl
@[simp] theorem shiftFlags_runState (s : State) (r : Shifted) : (shiftFlags r s).runState = s.runState := rfl
@[simp] theorem shiftFlags_diagnostics (s : State) (r : Shifted) : (shiftFlags r s).diagnostics = s.diagnostics := rfl
@[simp] theorem shiftFlags_config (s : State) (r : Shifted) : (shiftFlags r s).config = s.config := rfl

@[simp] theorem takeSum_x (s : State) (r : Sum) : (takeSum r s).x = s.x := rfl
@[simp] theorem takeSum_y (s : State) (r : Sum) : (takeSum r s).y = s.y := rfl
@[simp] theorem takeSum_sp (s : State) (r : Sum) : (takeSum r s).sp = s.sp := rfl
@[simp] theorem takeSum_pc (s : State) (r : Sum) : (takeSum r s).pc = s.pc := rfl
@[simp] theorem takeSum_mem (s : State) (r : Sum) : (takeSum r s).mem = s.mem := rfl
@[simp] theorem takeSum_runState (s : State) (r : Sum) : (takeSum r s).runState = s.runState := rfl
@[simp] theorem takeSum_diagnostics (s : State) (r : Sum) : (takeSum r s).diagnostics = s.diagnostics := rfl
@[simp] theorem takeSum_config (s : State) (r : Sum) : (takeSum r s).config = s.config := rfl

@[simp] theorem skipOperands_a (s : State) (m : Mode) : (skipOperands m s).a = s.a := rfl
@[simp] theorem skipOperands_x (s : State) (m : Mode) : (skipOperands m s).x = s.x := rfl
@[simp] theorem skipOperands_y (s : State) (m : Mode) : (skipOperands m s).y = s.y := rfl
@[simp] theorem skipOperands_sp (s : State) (m : Mode) : (skipOperands m s).sp = s.sp := rfl
@[simp] theorem skipOperands_p (s : State) (m : Mode) : (skipOperands m s).p = s.p := rfl
@[simp] theorem skipOperands_mem (s : State) (m : Mode) : (skipOperands m s).mem = s.mem := rfl
@[simp] theorem skipOperands_runState (s : State) (m : Mode) : (skipOperands m s).runState = s.runState := rfl
@[simp] theorem skipOperands_diagnostics (s : State) (m : Mode) : (skipOperands m s).diagnostics = s.diagnostics := rfl
@[simp] theorem skipOperands_config (s : State) (m : Mode) : (skipOperands m s).config = s.config := rfl

@[simp] theorem push_a (s : State) (v : Byte) : (push v s).a = s.a := rfl
@[simp] theorem push_x (s : State) (v : Byte) : (push v s).x = s.x := rfl
@[simp] theorem push_y (s : State) (v : Byte) : (push v s).y = s.y := rfl
@[simp] theorem push_pc (s : State) (v : Byte) : (push v s).pc = s.pc := rfl
@[simp] theorem push_p (s : State) (v : Byte) : (push v s).p = s.p := rfl
@[simp] theorem push_runState (s : State) (v : Byte) : (push v s).runState = s.runState := rfl
@[simp] theorem push_diagnostics (s : State) (v : Byte) : (push v s).diagnostics = s.diagnostics := rfl
@[simp] theorem push_config (s : State) (v : Byte) : (push v s).config = s.config := rfl
@[simp] theorem dropPulled_a (s : State) : (dropPulled s).a = s.a := rfl
@[simp] theorem dropPulled_x (s : State) : (dropPulled s).x = s.x := rfl
@[simp] theorem dropPulled_y (s : State) : (dropPulled s).y = s.y := rfl
@[simp] theorem dropPulled_pc (s : State) : (dropPulled s).pc = s.pc := rfl
@[simp] theorem dropPulled_p (s : State) : (dropPulled s).p = s.p := rfl
@[simp] theorem dropPulled_mem (s : State) : (dropPulled s).mem = s.mem := rfl
@[simp] theorem dropPulled_runState (s : State) : (dropPulled s).runState = s.runState := rfl
@[simp] theorem dropPulled_diagnostics (s : State) : (dropPulled s).diagnostics = s.diagnostics := rfl
@[simp] theorem dropPulled_config (s : State) : (dropPulled s).config = s.config := rfl
@[simp] theorem pullStatus_a (s : State) : (pullStatus s).a = s.a := rfl
@[simp] theorem pullStatus_x (s : State) : (pullStatus s).x = s.x := rfl
@[simp] theorem pullStatus_y (s : State) : (pullStatus s).y = s.y := rfl
@[simp] theorem pullStatus_pc (s : State) : (pullStatus s).pc = s.pc := rfl
@[simp] theorem pullStatus_mem (s : State) : (pullStatus s).mem = s.mem := rfl
@[simp] theorem pullStatus_runState (s : State) : (pullStatus s).runState = s.runState := rfl
@[simp] theorem pullStatus_diagnostics (s : State) : (pullStatus s).diagnostics = s.diagnostics := rfl
@[simp] theorem pullStatus_config (s : State) : (pullStatus s).config = s.config := rfl
@[simp] theorem fetched_a (s : State) : (fetched s).a = s.a := rfl
@[simp] theorem fetched_x (s : State) : (fetched s).x = s.x := rfl
@[simp] theorem fetched_y (s : State) : (fetched s).y = s.y := rfl
@[simp] theorem fetched_sp (s : State) : (fetched s).sp = s.sp := rfl
@[simp] theorem fetched_p (s : State) : (fetched s).p = s.p := rfl
@[simp] theorem fetched_mem (s : State) : (fetched s).mem = s.mem := rfl
@[simp] theorem fetched_runState (s : State) : (fetched s).runState = s.runState := rfl
@[simp] theorem fetched_diagnostics (s : State) : (fetched s).diagnostics = s.diagnostics := rfl
@[simp] theorem fetched_config (s : State) : (fetched s).config = s.config := rfl
@[simp] theorem raiseHalt_a (s : State) (r : HaltReason) : (raiseHalt r s).a = s.a := rfl
@[simp] theorem raiseHalt_x (s : State) (r : HaltReason) : (raiseHalt r s).x = s.x := rfl
@[simp] theorem raiseHalt_y (s : State) (r : HaltReason) : (raiseHalt r s).y = s.y := rfl
@[simp] theorem raiseHalt_sp (s : State) (r : HaltReason) : (raiseHalt r s).sp = s.sp := rfl
@[simp] theorem raiseHalt_pc (s : State) (r : HaltReason) : (raiseHalt r s).pc = s.pc := rfl
@[simp] theorem raiseHalt_p (s : State) (r : HaltReason) : (raiseHalt r s).p = s.p := rfl
@[simp] theorem raiseHalt_mem (s : State) (r : HaltReason) : (raiseHalt r s).mem = s.mem := rfl
@[simp] theorem raiseHalt_diagnostics (s : State) (r : HaltReason) : (raiseHalt r s).diagnostics = s.diagnostics := rfl
@[simp] theorem raiseHalt_config (s : State) (r : HaltReason) : (raiseHalt r s).config = s.config := rfl

@[simp] theorem takeSum_a (s : State) (r : Sum) : (takeSum r s).a = r.result := rfl
@[simp] theorem skipOperands_pc (s : State) (m : Mode) :
    (skipOperands m s).pc = s.pc + BitVec.ofNat 16 m.operandBytes := rfl
@[simp] theorem push_sp (s : State) (v : Byte) : (push v s).sp = s.sp - 1 := rfl
@[simp] theorem push_mem (s : State) (v : Byte) :
    (push v s).mem = s.mem.writeByte (stackAddr s.sp) v := rfl
@[simp] theorem dropPulled_sp (s : State) : (dropPulled s).sp = s.sp + 1 := rfl
@[simp] theorem pullStatus_sp (s : State) : (pullStatus s).sp = s.sp + 1 := rfl
@[simp] theorem pullStatus_p (s : State) : (pullStatus s).p = restoredStatus (pulled s) s.p := rfl
@[simp] theorem fetched_pc (s : State) : (fetched s).pc = s.pc + 1 := rfl
@[simp] theorem raiseHalt_runState (s : State) (r : HaltReason) :
    (raiseHalt r s).runState = .halted r := rfl

end Sys2Proof.Machine
end

