-- ==== Sys2Proof/Laws/Flags.lean ====
section
/-! SUPPORT. The laws of the flags: what each flag is after each flag computation, and that the eight flags are
all of P. -/

namespace Sys2Proof.Machine

theorem getFlag_putFlag (p : Byte) (f g : Flag) (b : Bool) :
    getFlag (putFlag p f b) g = if g = f then b else getFlag p g := by
  cases f <;> cases g <;> cases b <;> simp [getFlag, putFlag, Flag.bit]

/-- P is its eight flags. -/
theorem status_ext {p q : Byte} (h : ∀ f, getFlag p f = getFlag q f) : p = q := by
  apply BitVec.eq_of_getLsbD_eq
  intro i hi
  have hN := h .N
  have hV := h .V
  have hB2 := h .B2
  have hB := h .B
  have hD := h .D
  have hI := h .I
  have hZ := h .Z
  have hC := h .C
  simp only [getFlag, Flag.bit] at hN hV hB2 hB hD hI hZ hC
  have : i = 0 ∨ i = 1 ∨ i = 2 ∨ i = 3 ∨ i = 4 ∨ i = 5 ∨ i = 6 ∨ i = 7 := by omega
  rcases this with rfl | rfl | rfl | rfl | rfl | rfl | rfl | rfl <;> assumption

/-! ## The updates that leave P alone -/

@[simp] theorem State.setA_flag (s : State) (v : Byte) (f : Flag) : (s.setA v).flag f = s.flag f := rfl
@[simp] theorem State.setX_flag (s : State) (v : Byte) (f : Flag) : (s.setX v).flag f = s.flag f := rfl
@[simp] theorem State.setY_flag (s : State) (v : Byte) (f : Flag) : (s.setY v).flag f = s.flag f := rfl
@[simp] theorem State.setSp_flag (s : State) (v : Byte) (f : Flag) :
    (s.setSp v).flag f = s.flag f := rfl
@[simp] theorem State.setPc_flag (s : State) (v : Word) (f : Flag) :
    (s.setPc v).flag f = s.flag f := rfl
@[simp] theorem State.setMem_flag (s : State) (m : Memory) (f : Flag) :
    (s.setMem m).flag f = s.flag f := rfl
@[simp] theorem State.writeByte_flag (s : State) (a : Word) (v : Byte) (f : Flag) :
    (s.writeByte a v).flag f = s.flag f := rfl
@[simp] theorem skipOperands_flag (s : State) (m : Mode) (f : Flag) :
    (skipOperands m s).flag f = s.flag f := rfl
@[simp] theorem push_flag (s : State) (v : Byte) (f : Flag) : (push v s).flag f = s.flag f := rfl
@[simp] theorem dropPulled_flag (s : State) (f : Flag) : (dropPulled s).flag f = s.flag f := rfl
@[simp] theorem fetched_flag (s : State) (f : Flag) : (fetched s).flag f = s.flag f := rfl
@[simp] theorem raiseHalt_flag (s : State) (r : HaltReason) (f : Flag) :
    (raiseHalt r s).flag f = s.flag f := rfl

/-! ## The flag computations -/

theorem State.setFlag_flag (s : State) (f g : Flag) (b : Bool) :
    (s.setFlag f b).flag g = if g = f then b else s.flag g := getFlag_putFlag s.p f g b

theorem setZN_flag (s : State) (r : Byte) (f : Flag) :
    (setZN r s).flag f = if f = .N then r.msb else if f = .Z then r == 0 else s.flag f := by
  simp only [setZN, State.setFlag_flag]

theorem compareFlags_flag (s : State) (r m : Byte) (f : Flag) :
    (compareFlags r m s).flag f = if f = .N then (r - m).msb else if f = .Z then r == m
      else if f = .C then decide (m.toNat ≤ r.toNat) else s.flag f := by
  simp only [compareFlags, State.setFlag_flag]

theorem bitFlags_flag (s : State) (m : Byte) (f : Flag) :
    (bitFlags m s).flag f = if f = .V then m.getLsbD 6 else if f = .N then m.getLsbD 7
      else if f = .Z then (s.a &&& m) == 0 else s.flag f := by
  simp only [bitFlags, State.setFlag_flag]

theorem shiftFlags_flag (s : State) (r : Shifted) (f : Flag) :
    (shiftFlags r s).flag f = if f = .N then r.result.msb else if f = .Z then r.result == 0
      else if f = .C then r.carry else s.flag f := by
  simp only [shiftFlags, setZN_flag, State.setFlag_flag]

theorem takeSum_flag (s : State) (r : Sum) (f : Flag) :
    (takeSum r s).flag f = if f = .N then r.result.msb else if f = .Z then r.result == 0
      else if f = .V then r.overflow else if f = .C then r.carry else s.flag f := by
  simp only [takeSum, setZN_flag, State.setFlag_flag, State.setA_flag]

/-- The flags PLP and RTI write: all but B and B2 from the pulled byte (43_transfer_stack.md R124). -/
theorem getFlag_restoredStatus (v p : Byte) (f : Flag) :
    getFlag (restoredStatus v p) f = if f = .B ∨ f = .B2 then getFlag p f else getFlag v f := by
  cases f <;> simp [getFlag, restoredStatus, Flag.bit]

end Sys2Proof.Machine
end

