-- ==== Sys2Proof/Laws/Memory.lean ====
section
/-! SUPPORT. The laws of the memory: a read after a write, the bytes a write leaves alone, and the canonical
form, which every operation keeps. -/

namespace Sys2Proof.Machine

@[simp] theorem Memory.lookup_nil (a : Nat) : Memory.lookup [] a = Memory.unlisted := rfl

theorem Memory.lookup_cons_other {m : Memory} {a b : Nat} (v : Byte) (h : b ≠ a) :
    Memory.lookup (Memory.cons a v m) b = Memory.lookup m b := by
  unfold Memory.cons
  split <;> simp [Memory.lookup, h]

theorem Memory.lookup_store_other (m : Memory) {a b : Nat} (v : Byte) (h : b ≠ a) :
    Memory.lookup (Memory.store m a v) b = Memory.lookup m b := by
  induction m with
  | nil => exact Memory.lookup_cons_other v h
  | cons c rest ih =>
    obtain ⟨k, w⟩ := c
    unfold Memory.store
    split
    · exact Memory.lookup_cons_other v h
    · split
      · next hk => subst hk; simp [Memory.lookup_cons_other v h, Memory.lookup, h]
      · simp [Memory.lookup, ih]

theorem Memory.lookup_below {m : Memory} {low a : Nat} (h : Memory.wfFrom low m = true)
    (ha : a < low) : Memory.lookup m a = Memory.unlisted := by
  induction m generalizing low with
  | nil => rfl
  | cons c rest ih =>
    obtain ⟨k, w⟩ := c
    simp only [Memory.wfFrom, Bool.and_eq_true, decide_eq_true_eq] at h
    have hk : a ≠ k := by omega
    simp only [Memory.lookup, hk, if_false]
    exact ih h.2 (by omega)

theorem Memory.lookup_cons_self {m : Memory} {a : Nat} (v : Byte)
    (h : Memory.wfFrom (a + 1) m = true) : Memory.lookup (Memory.cons a v m) a = v := by
  unfold Memory.cons
  split
  · next hv => rw [hv]; exact Memory.lookup_below h (by omega)
  · simp [Memory.lookup]

theorem Memory.wfFrom_mono {m : Memory} {low low' : Nat} (h : Memory.wfFrom low m = true)
    (hl : low' ≤ low) : Memory.wfFrom low' m = true := by
  cases m with
  | nil => rfl
  | cons c rest =>
    obtain ⟨k, w⟩ := c
    simp only [Memory.wfFrom, Bool.and_eq_true, decide_eq_true_eq] at h ⊢
    exact ⟨⟨⟨by omega, h.1.1.2⟩, h.1.2⟩, h.2⟩

theorem Memory.wfFrom_tail {k : Nat} {w : Byte} {rest : Memory} {low : Nat}
    (h : Memory.wfFrom low ((k, w) :: rest) = true) : Memory.wfFrom (k + 1) rest = true := by
  simp only [Memory.wfFrom, Bool.and_eq_true] at h
  exact h.2

theorem Memory.wfFrom_cons {m : Memory} {low a : Nat} (v : Byte)
    (h : Memory.wfFrom (a + 1) m = true) (hl : low ≤ a) (ha : a < 65536) :
    Memory.wfFrom low (Memory.cons a v m) = true := by
  unfold Memory.cons
  split
  · exact Memory.wfFrom_mono h (by omega)
  · next hv => simp [Memory.wfFrom, h, hl, ha, hv]

/-- A list that is canonical from `low` on, and whose first key is above `a`, is canonical from `a + 1` on. -/
theorem Memory.wfFrom_head {k : Nat} {w : Byte} {rest : Memory} {low a : Nat}
    (h : Memory.wfFrom low ((k, w) :: rest) = true) (ha : a < k) :
    Memory.wfFrom (a + 1) ((k, w) :: rest) = true := by
  simp only [Memory.wfFrom, Bool.and_eq_true, decide_eq_true_eq] at h ⊢
  exact ⟨⟨⟨by omega, h.1.1.2⟩, h.1.2⟩, h.2⟩

theorem Memory.wfFrom_store {m : Memory} {low a : Nat} (v : Byte) (h : Memory.wfFrom low m = true)
    (hl : low ≤ a) (ha : a < 65536) : Memory.wfFrom low (Memory.store m a v) = true := by
  induction m generalizing low with
  | nil => exact Memory.wfFrom_cons v rfl hl ha
  | cons c rest ih =>
    obtain ⟨k, w⟩ := c
    unfold Memory.store
    split
    · next hk => exact Memory.wfFrom_cons v (Memory.wfFrom_head h hk) hl ha
    · split
      · next hk => exact Memory.wfFrom_cons v (hk ▸ Memory.wfFrom_tail h) hl ha
      · have ht := ih (Memory.wfFrom_tail h) (by omega)
        simp only [Memory.wfFrom, Bool.and_eq_true, decide_eq_true_eq] at h ⊢
        exact ⟨h.1, ht⟩

theorem Memory.lookup_store_self {m : Memory} {low a : Nat} (v : Byte)
    (h : Memory.wfFrom low m = true) : Memory.lookup (Memory.store m a v) a = v := by
  induction m generalizing low with
  | nil => exact Memory.lookup_cons_self v rfl
  | cons c rest ih =>
    obtain ⟨k, w⟩ := c
    unfold Memory.store
    split
    · next hk => exact Memory.lookup_cons_self v (Memory.wfFrom_head h hk)
    · split
      · next hk => exact Memory.lookup_cons_self v (hk ▸ Memory.wfFrom_tail h)
      · next hk => simp only [Memory.lookup, hk, if_false]; exact ih (Memory.wfFrom_tail h)

/-! ## The accessors -/

/-- A read of the byte just written (20_memory.md R41, R42, R53). -/
theorem Memory.readByte_writeByte_self {m : Memory} (h : m.wf = true) (a : Word) (v : Byte) :
    (m.writeByte a v).readByte a = v := Memory.lookup_store_self v h

/-- A write leaves every other byte alone (20_memory.md R42). -/
theorem Memory.readByte_writeByte_other (m : Memory) {a b : Word} (v : Byte) (h : b ≠ a) :
    (m.writeByte a v).readByte b = m.readByte b :=
  Memory.lookup_store_other m v (fun e => h (BitVec.eq_of_toNat_eq e))

@[simp] theorem Memory.wf_nil : Memory.wf [] = true := rfl

/-- A write keeps the canonical form. -/
theorem Memory.wf_writeByte {m : Memory} (h : m.wf = true) (a : Word) (v : Byte) :
    (m.writeByte a v).wf = true :=
  Memory.wfFrom_store v h (Nat.zero_le _) (by have := a.isLt; omega)

theorem Memory.wf_writeU16 {m : Memory} (h : m.wf = true) (a v : Word) :
    (m.writeU16 a v).wf = true :=
  Memory.wf_writeByte (Memory.wf_writeByte h _ _) _ _

theorem Memory.wf_writeBytes {m : Memory} (h : m.wf = true) (a : Word) (bs : List Byte) :
    (m.writeBytes a bs).wf = true := by
  induction bs generalizing m a with
  | nil => exact h
  | cons b rest ih => exact ih (Memory.wf_writeByte h a b) (a + 1)

/-- A write of two bytes leaves every byte but those two alone (20_memory.md R46). -/
theorem Memory.readByte_writeU16_other (m : Memory) {a b v : Word} (h0 : b ≠ a) (h1 : b ≠ a + 1) :
    (m.writeU16 a v).readByte b = m.readByte b := by
  unfold Memory.writeU16
  rw [Memory.readByte_writeByte_other _ _ h1, Memory.readByte_writeByte_other _ _ h0]

end Sys2Proof.Machine
end

