-- ==== Sys2Proof/Laws/Ops.lean ====
section
/-! SUPPORT. What the shared operations on memory, stack, program counter and run state do: one lemma each, and
that each keeps the memory canonical. -/

namespace Sys2Proof.Machine

/-! ## Memory through the state -/

theorem State.readByte_writeByte_self {s : State} (h : s.mem.wf = true) (a : Word) (v : Byte) :
    (s.writeByte a v).readByte a = v := Memory.readByte_writeByte_self h a v

theorem State.readByte_writeByte_other (s : State) {a b : Word} (v : Byte) (h : b ≠ a) :
    (s.writeByte a v).readByte b = s.readByte b := Memory.readByte_writeByte_other s.mem v h

theorem State.wf_writeByte {s : State} (h : s.mem.wf = true) (a : Word) (v : Byte) :
    (s.writeByte a v).mem.wf = true := Memory.wf_writeByte h a v

/-- A read sees the memory alone. -/
theorem State.readByte_congr {s t : State} (h : t.mem = s.mem) (a : Word) :
    t.readByte a = s.readByte a := by unfold State.readByte; rw [h]

/-! ## The stack -/

/-- The stack byte a stack pointer designates lies in the stack page (10_state.md R16). -/
theorem stackAddr_toNat (sp : Byte) : (stackAddr sp).toNat = 256 + sp.toNat := by
  have := sp.isLt
  simp [stackAddr, zext16, BitVec.toNat_add]
  omega

theorem stackAddr_inj {a b : Byte} (h : stackAddr a = stackAddr b) : a = b := by
  have := congrArg BitVec.toNat h
  rw [stackAddr_toNat, stackAddr_toNat] at this
  exact BitVec.eq_of_toNat_eq (by omega)

/-- `Push` writes the stack byte S designates (41_addressing.md R105). -/
theorem push_readByte_self {s : State} (h : s.mem.wf = true) (v : Byte) :
    (push v s).readByte (stackAddr s.sp) = v := State.readByte_writeByte_self h _ v

/-- `Push` leaves every other byte alone. -/
theorem push_readByte_other (s : State) (v : Byte) {b : Word} (h : b ≠ stackAddr s.sp) :
    (push v s).readByte b = s.readByte b := State.readByte_writeByte_other s v h

theorem push_wf {s : State} (h : s.mem.wf = true) (v : Byte) : (push v s).mem.wf = true :=
  State.wf_writeByte h _ v

/-- `Pull` after `Push` returns the byte pushed (41_addressing.md R105, R106). -/
theorem pulled_push {s : State} (h : s.mem.wf = true) (v : Byte) : pulled (push v s) = v := by
  unfold pulled
  rw [push_sp, BitVec.sub_add_cancel]
  exact push_readByte_self h v

/-! ## How a handler ends -/

@[simp] theorem complete_eq_next {m : Mode} {s t : State} :
    complete m s = .next t ↔ skipOperands m s = t := by
  simp [complete]

@[simp] theorem redirect_eq_next {w : Word} {s t : State} :
    redirect w s = .next t ↔ s.setPc w = t := by
  simp [redirect]

@[simp] theorem misuse_eq_next {m : Mode} {s t : State} :
    misuse m s = .next t ↔ raiseHalt (.resolverMisuse m (opcodeAddr s)) s = t := by
  simp [misuse]

/-- With PC one past the opcode, the operand skip leads to the opcode address plus the length
(40_engine.md R78, R80). -/
theorem skip_from_opcode (pc : Word) (m : Mode) :
    pc + BitVec.ofNat 16 m.operandBytes = (pc - 1) + BitVec.ofNat 16 m.length := by
  unfold Mode.length
  cases m <;> simp only [Mode.operandBytes] <;> bv_omega

end Sys2Proof.Machine
end

