-- ==== Sys2Proof/Laws/Operands.lean ====
section
/-! SUPPORT. What the operand helpers do: when an operand yields a byte or an address, and the two ways each
shared handler ends. -/

namespace Sys2Proof.Machine

@[simp] theorem resolve_noAddressing (s : State) : resolve .noAddressing s = none := rfl

/-- A byte operand is the immediate byte or the byte at the address (41_addressing.md R107). -/
theorem readOperand_eq_some {o : Operand} {s : State} {v : Byte} :
    readOperand o s = some v ↔
      resolve o s = some (.imm v) ∨ ∃ ea, resolve o s = some (.addr ea) ∧ v = s.readByte ea := by
  unfold readOperand
  split <;> simp_all [eq_comm]

theorem effectiveAddr_eq_some {o : Operand} {s : State} {ea : Word} :
    effectiveAddr o s = some ea ↔ resolve o s = some (.addr ea) := by
  unfold effectiveAddr
  split <;> simp_all

/-- Only NoAddressing and Relative operands stand for no byte. -/
theorem readOperand_isSome {o : Operand} (s : State) (h0 : o.mode ≠ .noAddressing)
    (h1 : o.mode ≠ .relative) : ∃ v, readOperand o s = some v := by
  cases o <;> simp_all [readOperand, resolve, Operand.mode]

/-- Only NoAddressing, Relative and Immediate operands have no address. -/
theorem effectiveAddr_isSome {o : Operand} (s : State) (h0 : o.mode ≠ .noAddressing)
    (h1 : o.mode ≠ .relative) (h2 : o.mode ≠ .immediate) : ∃ ea, effectiveAddr o s = some ea := by
  cases o <;> simp_all [effectiveAddr, resolve, Operand.mode]

/-! ## The shared handlers -/

theorem withOperand_eq {m : Mnemonic} {o : Operand} {k : Byte → State → State} {s : State} {v : Byte}
    (hm : m.modes.contains o.mode = true) (hv : readOperand o s = some v) :
    withOperand m o k s = complete o.mode (k v s) := by
  simp only [withOperand, hm, if_true, hv]

theorem withAddress_eq {m : Mnemonic} {o : Operand} {k : Word → State → Result} {s : State}
    {ea : Word} (hm : m.modes.contains o.mode = true) (ha : effectiveAddr o s = some ea) :
    withAddress m o k s = k ea s := by
  simp only [withAddress, hm, if_true, ha]

/-- A handler that reads its operand completes or is a resolver misuse. -/
theorem withOperand_cases (m : Mnemonic) (o : Operand) (k : Byte → State → State) (s : State) :
    (∃ v, m.modes.contains o.mode = true ∧ readOperand o s = some v ∧
      withOperand m o k s = .next (skipOperands o.mode (k v s))) ∨
    withOperand m o k s = .next (raiseHalt (.resolverMisuse o.mode (opcodeAddr s)) s) := by
  unfold withOperand
  split
  · next hm =>
    split
    · next v hv => exact .inl ⟨v, hm, hv, rfl⟩
    · exact .inr rfl
  · exact .inr rfl

/-- A handler on an address hands it on or is a resolver misuse. -/
theorem withAddress_cases (m : Mnemonic) (o : Operand) (k : Word → State → Result) (s : State) :
    (∃ ea, m.modes.contains o.mode = true ∧ effectiveAddr o s = some ea ∧
      withAddress m o k s = k ea s) ∨
    withAddress m o k s = .next (raiseHalt (.resolverMisuse o.mode (opcodeAddr s)) s) := by
  unfold withAddress
  split
  · next hm =>
    split
    · next ea ha => exact .inl ⟨ea, hm, ha, rfl⟩
    · exact .inr rfl
  · exact .inr rfl

theorem storeOperand_cases (m : Mnemonic) (o : Operand) (v : Byte) (s : State) :
    (∃ ea, m.modes.contains o.mode = true ∧ effectiveAddr o s = some ea ∧
      storeOperand m o v s = .next (skipOperands o.mode (s.writeByte ea v))) ∨
    storeOperand m o v s = .next (raiseHalt (.resolverMisuse o.mode (opcodeAddr s)) s) :=
  withAddress_cases m o _ s

theorem modifyMemory_cases (m : Mnemonic) (o : Operand) (f : Byte → Byte)
    (flags : Byte → State → State) (s : State) :
    (∃ ea, m.modes.contains o.mode = true ∧ effectiveAddr o s = some ea ∧
      modifyMemory m o f flags s =
        .next (skipOperands o.mode
          (flags (s.readByte ea) (s.writeByte ea (f (s.readByte ea)))))) ∨
    modifyMemory m o f flags s =
      .next (raiseHalt (.resolverMisuse o.mode (opcodeAddr s)) s) :=
  withAddress_cases m o _ s

/-- A shift or rotate works on A, on the byte at an address, or is a resolver misuse. -/
theorem shiftOperand_cases (m : Mnemonic) (o : Operand) (f : Byte → Shifted) (s : State) :
    (o = .noAddressing ∧ shiftOperand m o f s =
      .next (skipOperands .noAddressing (shiftFlags (f s.a) (s.setA (f s.a).result)))) ∨
    (∃ ea, m.modes.contains o.mode = true ∧ effectiveAddr o s = some ea ∧
      shiftOperand m o f s = .next (skipOperands o.mode
        (shiftFlags (f (s.readByte ea)) (s.writeByte ea (f (s.readByte ea)).result)))) ∨
    shiftOperand m o f s = .next (raiseHalt (.resolverMisuse o.mode (opcodeAddr s)) s) := by
  by_cases h : o = .noAddressing
  · subst h; exact .inl ⟨rfl, rfl⟩
  · have : shiftOperand m o f s = modifyMemory m o (fun v => (f v).result) (fun v => shiftFlags (f v)) s := by
      cases o <;> first | rfl | exact absurd rfl h
    rw [this]
    exact .inr (modifyMemory_cases m o _ _ s)

end Sys2Proof.Machine
end

