-- ==== Sys2Proof/Laws/PerInstr.lean ====
section
/-! SUPPORT. The statements made of every constructor of `Instr`, one lemma each. The family EncodingLength: the
bytes of a well-formed instruction are as many as its length (spec 30_encoding.md R59, R60). -/

namespace Sys2Proof

/-- The encoding of a well-formed instruction has the length of its mode. -/
def Laws.EncodingLength.Statement (i : Instr) : Prop :=
  i.wellFormed = true → (encode i).length = i.length

/-- The operand bytes are as many as the mode says. -/
theorem Operand.bytes_length (o : Operand) : o.bytes.length = o.mode.operandBytes := by
  cases o <;> rfl

/-- The length of an encoding that exists. -/
theorem encode_length {i : Instr} {op : Byte} (h : opcodeOf i.mnemonic i.mode = some op) :
    (encode i).length = i.length := by
  unfold encode
  rw [h]
  simp only [List.length_cons, Operand.bytes_length, Instr.length, Mode.length, Instr.mode]
  omega

/-- Every mode a rule lists has an opcode in that rule. -/
theorem opcodeOf_isSome (m : Mnemonic) (mode : Mode) (h : m.modes.contains mode = true) :
    ∃ op, opcodeOf m mode = some op := by
  cases m <;> cases mode <;> first | exact ⟨_, rfl⟩ | (revert h; decide)

theorem Laws.EncodingLength.of_wellFormed (i : Instr) : Laws.EncodingLength.Statement i := by
  intro h
  obtain ⟨op, hop⟩ := opcodeOf_isSome i.mnemonic i.mode h
  exact encode_length hop

theorem Laws.EncodingLength.lda (o : Operand) : Laws.EncodingLength.Statement (.lda o) :=
  Laws.EncodingLength.of_wellFormed (.lda o)
theorem Laws.EncodingLength.ldx (o : Operand) : Laws.EncodingLength.Statement (.ldx o) :=
  Laws.EncodingLength.of_wellFormed (.ldx o)
theorem Laws.EncodingLength.ldy (o : Operand) : Laws.EncodingLength.Statement (.ldy o) :=
  Laws.EncodingLength.of_wellFormed (.ldy o)
theorem Laws.EncodingLength.sta (o : Operand) : Laws.EncodingLength.Statement (.sta o) :=
  Laws.EncodingLength.of_wellFormed (.sta o)
theorem Laws.EncodingLength.stx (o : Operand) : Laws.EncodingLength.Statement (.stx o) :=
  Laws.EncodingLength.of_wellFormed (.stx o)
theorem Laws.EncodingLength.sty (o : Operand) : Laws.EncodingLength.Statement (.sty o) :=
  Laws.EncodingLength.of_wellFormed (.sty o)
theorem Laws.EncodingLength.tax : Laws.EncodingLength.Statement (.tax) :=
  Laws.EncodingLength.of_wellFormed (.tax)
theorem Laws.EncodingLength.tay : Laws.EncodingLength.Statement (.tay) :=
  Laws.EncodingLength.of_wellFormed (.tay)
theorem Laws.EncodingLength.tsx : Laws.EncodingLength.Statement (.tsx) :=
  Laws.EncodingLength.of_wellFormed (.tsx)
theorem Laws.EncodingLength.txa : Laws.EncodingLength.Statement (.txa) :=
  Laws.EncodingLength.of_wellFormed (.txa)
theorem Laws.EncodingLength.txs : Laws.EncodingLength.Statement (.txs) :=
  Laws.EncodingLength.of_wellFormed (.txs)
theorem Laws.EncodingLength.tya : Laws.EncodingLength.Statement (.tya) :=
  Laws.EncodingLength.of_wellFormed (.tya)
theorem Laws.EncodingLength.pha : Laws.EncodingLength.Statement (.pha) :=
  Laws.EncodingLength.of_wellFormed (.pha)
theorem Laws.EncodingLength.php : Laws.EncodingLength.Statement (.php) :=
  Laws.EncodingLength.of_wellFormed (.php)
theorem Laws.EncodingLength.pla : Laws.EncodingLength.Statement (.pla) :=
  Laws.EncodingLength.of_wellFormed (.pla)
theorem Laws.EncodingLength.plp : Laws.EncodingLength.Statement (.plp) :=
  Laws.EncodingLength.of_wellFormed (.plp)
theorem Laws.EncodingLength.adc (o : Operand) : Laws.EncodingLength.Statement (.adc o) :=
  Laws.EncodingLength.of_wellFormed (.adc o)
theorem Laws.EncodingLength.sbc (o : Operand) : Laws.EncodingLength.Statement (.sbc o) :=
  Laws.EncodingLength.of_wellFormed (.sbc o)
theorem Laws.EncodingLength.cmp (o : Operand) : Laws.EncodingLength.Statement (.cmp o) :=
  Laws.EncodingLength.of_wellFormed (.cmp o)
theorem Laws.EncodingLength.cpx (o : Operand) : Laws.EncodingLength.Statement (.cpx o) :=
  Laws.EncodingLength.of_wellFormed (.cpx o)
theorem Laws.EncodingLength.cpy (o : Operand) : Laws.EncodingLength.Statement (.cpy o) :=
  Laws.EncodingLength.of_wellFormed (.cpy o)
theorem Laws.EncodingLength.inc (o : Operand) : Laws.EncodingLength.Statement (.inc o) :=
  Laws.EncodingLength.of_wellFormed (.inc o)
theorem Laws.EncodingLength.inx : Laws.EncodingLength.Statement (.inx) :=
  Laws.EncodingLength.of_wellFormed (.inx)
theorem Laws.EncodingLength.iny : Laws.EncodingLength.Statement (.iny) :=
  Laws.EncodingLength.of_wellFormed (.iny)
theorem Laws.EncodingLength.dec (o : Operand) : Laws.EncodingLength.Statement (.dec o) :=
  Laws.EncodingLength.of_wellFormed (.dec o)
theorem Laws.EncodingLength.dex : Laws.EncodingLength.Statement (.dex) :=
  Laws.EncodingLength.of_wellFormed (.dex)
theorem Laws.EncodingLength.dey : Laws.EncodingLength.Statement (.dey) :=
  Laws.EncodingLength.of_wellFormed (.dey)
theorem Laws.EncodingLength.and (o : Operand) : Laws.EncodingLength.Statement (.and o) :=
  Laws.EncodingLength.of_wellFormed (.and o)
theorem Laws.EncodingLength.ora (o : Operand) : Laws.EncodingLength.Statement (.ora o) :=
  Laws.EncodingLength.of_wellFormed (.ora o)
theorem Laws.EncodingLength.eor (o : Operand) : Laws.EncodingLength.Statement (.eor o) :=
  Laws.EncodingLength.of_wellFormed (.eor o)
theorem Laws.EncodingLength.bit (o : Operand) : Laws.EncodingLength.Statement (.bit o) :=
  Laws.EncodingLength.of_wellFormed (.bit o)
theorem Laws.EncodingLength.asl (o : Operand) : Laws.EncodingLength.Statement (.asl o) :=
  Laws.EncodingLength.of_wellFormed (.asl o)
theorem Laws.EncodingLength.lsr (o : Operand) : Laws.EncodingLength.Statement (.lsr o) :=
  Laws.EncodingLength.of_wellFormed (.lsr o)
theorem Laws.EncodingLength.rol (o : Operand) : Laws.EncodingLength.Statement (.rol o) :=
  Laws.EncodingLength.of_wellFormed (.rol o)
theorem Laws.EncodingLength.ror (o : Operand) : Laws.EncodingLength.Statement (.ror o) :=
  Laws.EncodingLength.of_wellFormed (.ror o)
theorem Laws.EncodingLength.bpl (off : Byte) : Laws.EncodingLength.Statement (.bpl off) :=
  Laws.EncodingLength.of_wellFormed (.bpl off)
theorem Laws.EncodingLength.bmi (off : Byte) : Laws.EncodingLength.Statement (.bmi off) :=
  Laws.EncodingLength.of_wellFormed (.bmi off)
theorem Laws.EncodingLength.bvc (off : Byte) : Laws.EncodingLength.Statement (.bvc off) :=
  Laws.EncodingLength.of_wellFormed (.bvc off)
theorem Laws.EncodingLength.bvs (off : Byte) : Laws.EncodingLength.Statement (.bvs off) :=
  Laws.EncodingLength.of_wellFormed (.bvs off)
theorem Laws.EncodingLength.bcc (off : Byte) : Laws.EncodingLength.Statement (.bcc off) :=
  Laws.EncodingLength.of_wellFormed (.bcc off)
theorem Laws.EncodingLength.bcs (off : Byte) : Laws.EncodingLength.Statement (.bcs off) :=
  Laws.EncodingLength.of_wellFormed (.bcs off)
theorem Laws.EncodingLength.bne (off : Byte) : Laws.EncodingLength.Statement (.bne off) :=
  Laws.EncodingLength.of_wellFormed (.bne off)
theorem Laws.EncodingLength.beq (off : Byte) : Laws.EncodingLength.Statement (.beq off) :=
  Laws.EncodingLength.of_wellFormed (.beq off)
theorem Laws.EncodingLength.jmp (o : Operand) : Laws.EncodingLength.Statement (.jmp o) :=
  Laws.EncodingLength.of_wellFormed (.jmp o)
theorem Laws.EncodingLength.jsr (target : Word) : Laws.EncodingLength.Statement (.jsr target) :=
  Laws.EncodingLength.of_wellFormed (.jsr target)
theorem Laws.EncodingLength.rts : Laws.EncodingLength.Statement (.rts) :=
  Laws.EncodingLength.of_wellFormed (.rts)
theorem Laws.EncodingLength.rti : Laws.EncodingLength.Statement (.rti) :=
  Laws.EncodingLength.of_wellFormed (.rti)
theorem Laws.EncodingLength.clc : Laws.EncodingLength.Statement (.clc) :=
  Laws.EncodingLength.of_wellFormed (.clc)
theorem Laws.EncodingLength.sec : Laws.EncodingLength.Statement (.sec) :=
  Laws.EncodingLength.of_wellFormed (.sec)
theorem Laws.EncodingLength.cli : Laws.EncodingLength.Statement (.cli) :=
  Laws.EncodingLength.of_wellFormed (.cli)
theorem Laws.EncodingLength.sei : Laws.EncodingLength.Statement (.sei) :=
  Laws.EncodingLength.of_wellFormed (.sei)
theorem Laws.EncodingLength.clv : Laws.EncodingLength.Statement (.clv) :=
  Laws.EncodingLength.of_wellFormed (.clv)
theorem Laws.EncodingLength.cld : Laws.EncodingLength.Statement (.cld) :=
  Laws.EncodingLength.of_wellFormed (.cld)
theorem Laws.EncodingLength.sed : Laws.EncodingLength.Statement (.sed) :=
  Laws.EncodingLength.of_wellFormed (.sed)
theorem Laws.EncodingLength.nop : Laws.EncodingLength.Statement (.nop) :=
  Laws.EncodingLength.of_wellFormed (.nop)
theorem Laws.EncodingLength.brk : Laws.EncodingLength.Statement (.brk) :=
  Laws.EncodingLength.of_wellFormed (.brk)

end Sys2Proof
end

