-- ==== Sys2Proof/Laws/Step.lean ====
section
/-! SUPPORT. What one step can do, said once: the cases of `step`, of the branch, and of a run. -/

namespace Sys2Proof.Machine

/-- A branch redirects or skips its offset byte: PC alone changes (46_control_transfer.md R147). -/
theorem branch_shape (cond : Bool) (off : Byte) (s : State) :
    branch cond off s = .next (s.setPc (if cond then relativeTarget off s else s.pc + 1)) := by
  cases cond <;> rfl

/-- The cases of a step that answers a next state: a decode failure, an unimplemented mnemonic, or the
handler of the decoded instruction (40_engine.md R74). -/
theorem step_cases {s t : State} (h : step s = .next t) :
    s.runState = .running ∧
    ((∃ r, decode (fetchBytes s) = .reject r ∧ t = decodeFailure s) ∨
     ∃ i rest, decode (fetchBytes s) = .ok i rest ∧
      ((isUnimplemented s i.mnemonic = true ∧ t = handleUnimplemented i s) ∨
       (isUnimplemented s i.mnemonic = false ∧ exec i (fetched s) = .next t))) := by
  unfold step prepare at h
  cases hr : s.runState with
  | unreset => simp [hr] at h
  | halted r => simp [hr] at h
  | running =>
    refine ⟨rfl, ?_⟩
    simp only [hr] at h
    cases hd : decode (fetchBytes s) with
    | reject r =>
      simp only [hd, Host.Outcome.next.injEq] at h
      exact .inl ⟨r, rfl, h.symm⟩
    | ok i rest =>
      simp only [hd] at h
      refine .inr ⟨i, rest, rfl, ?_⟩
      cases hu : isUnimplemented s i.mnemonic with
      | true =>
        simp only [hu, if_true, Host.Outcome.next.injEq] at h
        exact .inl ⟨rfl, h.symm⟩
      | false =>
        simp only [hu] at h
        exact .inr ⟨rfl, h⟩

/-- The engine's two ways with an unimplemented mnemonic (40_engine.md R83). -/
theorem handleUnimplemented_cases (i : Instr) (s : State) :
    (s.config.unimplPolicy = .strictFail ∧
      handleUnimplemented i s = raiseHalt (.unimplemented i.mnemonic s.pc) (fetched s)) ∨
    (s.config.unimplPolicy = .permissiveSkip ∧
      handleUnimplemented i s =
        skipOperands i.mode ((fetched s).emit (.unimplementedMnemonic i.mnemonic s.pc))) := by
  unfold handleUnimplemented
  cases s.config.unimplPolicy
  · exact .inr ⟨rfl, rfl⟩
  · exact .inl ⟨rfl, rfl⟩

/-- The instruction placed by `withFetchWord` keeps the memory canonical. -/
theorem State.withFetchWord_wf {s : State} (h : s.mem.wf = true) (nbits w : Nat) :
    (s.withFetchWord nbits w).mem.wf = true := Memory.wf_writeBytes h _ _

end Sys2Proof.Machine
end

