-- ==== Sys2Proof/Tests/Slice0.lean ====
section
/-! SUPPORT. The model's own tests. Expected values are the spec's worked examples and corner cases, and the rows
of spec/opcode_table.json; each theorem names its rule. -/

namespace Sys2Proof.Tests

set_option Elab.async false

open Sys2Proof Sys2Proof.Machine

/-! ## Helpers -/

/-- The state after reset, with a program at PC. -/
def program (pc : Word) (bytes : List Byte) : State :=
  { State.reset with pc := pc, mem := Memory.writeBytes [] pc bytes }

/-- What one step shows of its next state. -/
def after (s : State) {α : Type} (f : State → α) : Option α :=
  match step s with
  | .next t => some (f t)
  | _ => none

/-! ## Well-formed instructions -/

/-- One form each that the rule of the instruction lists. -/
theorem test_wellFormed_accepts :
    ([.lda (.immediate 1), .ldx (.zeroPageY 1), .ldy (.absoluteX 1), .sta (.indirectIndexed 1),
      .stx (.zeroPageY 1), .sty (.zeroPageX 1), .adc (.indexedIndirect 1), .sbc (.absoluteY 1),
      .cmp (.immediate 1), .cpx (.absolute 1), .cpy (.zeroPage 1), .inc (.absoluteX 1),
      .dec (.zeroPageX 1), .and (.absolute 1), .ora (.zeroPage 1), .eor (.absoluteY 1), .bit (.absolute 1),
      .asl .noAddressing, .lsr (.absoluteX 1), .rol (.zeroPageX 1), .ror .noAddressing,
      .jmp (.indirect 1), .brk, .bpl 0x80, .jsr 0xFFFF] : List Instr).all Instr.wellFormed = true := by
  decide

/-- An ill-formed term for each instruction that carries an operand. -/
theorem test_wellFormed_refuses :
    ([.lda (.zeroPageY 1), .ldx (.zeroPageX 1), .ldx (.absoluteX 1), .ldy (.zeroPageY 1),
      .sta (.immediate 1), .stx (.zeroPageX 1), .stx (.absoluteY 1), .sty (.zeroPageY 1),
      .sty (.absoluteX 1), .adc .noAddressing, .sbc (.indirect 1), .cmp (.zeroPageY 1),
      .cpx (.zeroPageX 1), .cpy (.absoluteX 1), .inc .noAddressing, .inc (.absoluteY 1),
      .dec (.immediate 1), .and (.relative 1), .ora (.indirect 1), .eor .noAddressing,
      .bit (.immediate 1), .asl (.absoluteY 1), .lsr (.immediate 1), .rol (.indirectIndexed 1),
      .ror (.zeroPageY 1), .jmp (.absoluteX 1), .jmp .noAddressing] : List Instr).all
      (fun i => !i.wellFormed) = true := by
  decide

/-! ## Decoding and encoding -/

/-- Whether the bytes decode to the instruction, leaving what follows, and encode it. -/
def decodesTo (c : List Byte × Instr) : Bool :=
  decide (decode (c.1 ++ [0xEE]) = .ok c.2 [0xEE]) && decide (encode c.2 = c.1) && c.2.wellFormed

/-- One word of each family, bit by bit (30_encoding.md R64; the rules' "Encoding" lines). -/
theorem test_decode_bits :
    ([([0b10101001, 0b00000101], .lda (.immediate 0x05)),
      ([0b10001101, 0b00110100, 0b00010010], .sta (.absolute 0x1234)),
      ([0b01001000], .pha),
      ([0b10011010], .txs),
      ([0b01101001, 0b01010000], .adc (.immediate 0x50)),
      ([0b11001001, 0b00100000], .cmp (.immediate 0x20)),
      ([0b11100110, 0b00010000], .inc (.zeroPage 0x10)),
      ([0b00101001, 0b00111100], .and (.immediate 0x3C)),
      ([0b00001010], .asl .noAddressing),
      ([0b11010000, 0b11111011], .bne 0xFB),
      ([0b01101100, 0b00100000, 0b00000001], .jmp (.indirect 0x0120)),
      ([0b00100000, 0b00000000, 0b10010000], .jsr 0x9000),
      ([0b11111000], .sed),
      ([0b00000000], .brk)] : List (List Byte × Instr)).all decodesTo = true := by
  decide +kernel

/-- The line 0x of the opcode table (30_encoding.md R64). -/
theorem test_decode_line_0 :
    ([([0x00], .brk), ([0x01, 0x34], .ora (.indexedIndirect 0x34)),
      ([0x05, 0x34], .ora (.zeroPage 0x34)), ([0x06, 0x34], .asl (.zeroPage 0x34)),
      ([0x08], .php), ([0x09, 0x34], .ora (.immediate 0x34)), ([0x0A], .asl .noAddressing),
      ([0x0D, 0x34, 0x12], .ora (.absolute 0x1234)), ([0x0E, 0x34, 0x12], .asl (.absolute 0x1234))] :
      List (List Byte × Instr)).all decodesTo = true := by
  decide +kernel

/-- The line 1x of the opcode table (30_encoding.md R64). -/
theorem test_decode_line_1 :
    ([([0x10, 0x34], .bpl 0x34), ([0x11, 0x34], .ora (.indirectIndexed 0x34)),
      ([0x15, 0x34], .ora (.zeroPageX 0x34)), ([0x16, 0x34], .asl (.zeroPageX 0x34)),
      ([0x18], .clc), ([0x19, 0x34, 0x12], .ora (.absoluteY 0x1234)),
      ([0x1D, 0x34, 0x12], .ora (.absoluteX 0x1234)),
      ([0x1E, 0x34, 0x12], .asl (.absoluteX 0x1234))] :
      List (List Byte × Instr)).all decodesTo = true := by
  decide +kernel

/-- The line 2x of the opcode table (30_encoding.md R64). -/
theorem test_decode_line_2 :
    ([([0x20, 0x34, 0x12], .jsr 0x1234), ([0x21, 0x34], .and (.indexedIndirect 0x34)),
      ([0x24, 0x34], .bit (.zeroPage 0x34)), ([0x25, 0x34], .and (.zeroPage 0x34)),
      ([0x26, 0x34], .rol (.zeroPage 0x34)), ([0x28], .plp),
      ([0x29, 0x34], .and (.immediate 0x34)), ([0x2A], .rol .noAddressing),
      ([0x2C, 0x34, 0x12], .bit (.absolute 0x1234)),
      ([0x2D, 0x34, 0x12], .and (.absolute 0x1234)), ([0x2E, 0x34, 0x12], .rol (.absolute 0x1234))] :
      List (List Byte × Instr)).all decodesTo = true := by
  decide +kernel

/-- The line 3x of the opcode table (30_encoding.md R64). -/
theorem test_decode_line_3 :
    ([([0x30, 0x34], .bmi 0x34), ([0x31, 0x34], .and (.indirectIndexed 0x34)),
      ([0x35, 0x34], .and (.zeroPageX 0x34)), ([0x36, 0x34], .rol (.zeroPageX 0x34)),
      ([0x38], .sec), ([0x39, 0x34, 0x12], .and (.absoluteY 0x1234)),
      ([0x3D, 0x34, 0x12], .and (.absoluteX 0x1234)),
      ([0x3E, 0x34, 0x12], .rol (.absoluteX 0x1234))] :
      List (List Byte × Instr)).all decodesTo = true := by
  decide +kernel

/-- The line 4x of the opcode table (30_encoding.md R64). -/
theorem test_decode_line_4 :
    ([([0x40], .rti), ([0x41, 0x34], .eor (.indexedIndirect 0x34)),
      ([0x45, 0x34], .eor (.zeroPage 0x34)), ([0x46, 0x34], .lsr (.zeroPage 0x34)),
      ([0x48], .pha), ([0x49, 0x34], .eor (.immediate 0x34)), ([0x4A], .lsr .noAddressing),
      ([0x4C, 0x34, 0x12], .jmp (.absolute 0x1234)),
      ([0x4D, 0x34, 0x12], .eor (.absolute 0x1234)), ([0x4E, 0x34, 0x12], .lsr (.absolute 0x1234))] :
      List (List Byte × Instr)).all decodesTo = true := by
  decide +kernel

/-- The line 5x of the opcode table (30_encoding.md R64). -/
theorem test_decode_line_5 :
    ([([0x50, 0x34], .bvc 0x34), ([0x51, 0x34], .eor (.indirectIndexed 0x34)),
      ([0x55, 0x34], .eor (.zeroPageX 0x34)), ([0x56, 0x34], .lsr (.zeroPageX 0x34)),
      ([0x58], .cli), ([0x59, 0x34, 0x12], .eor (.absoluteY 0x1234)),
      ([0x5D, 0x34, 0x12], .eor (.absoluteX 0x1234)),
      ([0x5E, 0x34, 0x12], .lsr (.absoluteX 0x1234))] :
      List (List Byte × Instr)).all decodesTo = true := by
  decide +kernel

/-- The line 6x of the opcode table (30_encoding.md R64). -/
theorem test_decode_line_6 :
    ([([0x60], .rts), ([0x61, 0x34], .adc (.indexedIndirect 0x34)),
      ([0x65, 0x34], .adc (.zeroPage 0x34)), ([0x66, 0x34], .ror (.zeroPage 0x34)),
      ([0x68], .pla), ([0x69, 0x34], .adc (.immediate 0x34)), ([0x6A], .ror .noAddressing),
      ([0x6C, 0x34, 0x12], .jmp (.indirect 0x1234)),
      ([0x6D, 0x34, 0x12], .adc (.absolute 0x1234)), ([0x6E, 0x34, 0x12], .ror (.absolute 0x1234))] :
      List (List Byte × Instr)).all decodesTo = true := by
  decide +kernel

/-- The line 7x of the opcode table (30_encoding.md R64). -/
theorem test_decode_line_7 :
    ([([0x70, 0x34], .bvs 0x34), ([0x71, 0x34], .adc (.indirectIndexed 0x34)),
      ([0x75, 0x34], .adc (.zeroPageX 0x34)), ([0x76, 0x34], .ror (.zeroPageX 0x34)),
      ([0x78], .sei), ([0x79, 0x34, 0x12], .adc (.absoluteY 0x1234)),
      ([0x7D, 0x34, 0x12], .adc (.absoluteX 0x1234)),
      ([0x7E, 0x34, 0x12], .ror (.absoluteX 0x1234))] :
      List (List Byte × Instr)).all decodesTo = true := by
  decide +kernel

/-- The line 8x of the opcode table (30_encoding.md R64). -/
theorem test_decode_line_8 :
    ([([0x81, 0x34], .sta (.indexedIndirect 0x34)), ([0x84, 0x34], .sty (.zeroPage 0x34)),
      ([0x85, 0x34], .sta (.zeroPage 0x34)), ([0x86, 0x34], .stx (.zeroPage 0x34)),
      ([0x88], .dey), ([0x8A], .txa), ([0x8C, 0x34, 0x12], .sty (.absolute 0x1234)),
      ([0x8D, 0x34, 0x12], .sta (.absolute 0x1234)), ([0x8E, 0x34, 0x12], .stx (.absolute 0x1234))] :
      List (List Byte × Instr)).all decodesTo = true := by
  decide +kernel

/-- The line 9x of the opcode table (30_encoding.md R64). -/
theorem test_decode_line_9 :
    ([([0x90, 0x34], .bcc 0x34), ([0x91, 0x34], .sta (.indirectIndexed 0x34)),
      ([0x94, 0x34], .sty (.zeroPageX 0x34)), ([0x95, 0x34], .sta (.zeroPageX 0x34)),
      ([0x96, 0x34], .stx (.zeroPageY 0x34)), ([0x98], .tya),
      ([0x99, 0x34, 0x12], .sta (.absoluteY 0x1234)), ([0x9A], .txs),
      ([0x9D, 0x34, 0x12], .sta (.absoluteX 0x1234))] :
      List (List Byte × Instr)).all decodesTo = true := by
  decide +kernel

/-- The line Ax of the opcode table (30_encoding.md R64). -/
theorem test_decode_line_A :
    ([([0xA0, 0x34], .ldy (.immediate 0x34)), ([0xA1, 0x34], .lda (.indexedIndirect 0x34)),
      ([0xA2, 0x34], .ldx (.immediate 0x34)), ([0xA4, 0x34], .ldy (.zeroPage 0x34)),
      ([0xA5, 0x34], .lda (.zeroPage 0x34)), ([0xA6, 0x34], .ldx (.zeroPage 0x34)),
      ([0xA8], .tay), ([0xA9, 0x34], .lda (.immediate 0x34)), ([0xAA], .tax),
      ([0xAC, 0x34, 0x12], .ldy (.absolute 0x1234)),
      ([0xAD, 0x34, 0x12], .lda (.absolute 0x1234)), ([0xAE, 0x34, 0x12], .ldx (.absolute 0x1234))] :
      List (List Byte × Instr)).all decodesTo = true := by
  decide +kernel

/-- The line Bx of the opcode table (30_encoding.md R64). -/
theorem test_decode_line_B :
    ([([0xB0, 0x34], .bcs 0x34), ([0xB1, 0x34], .lda (.indirectIndexed 0x34)),
      ([0xB4, 0x34], .ldy (.zeroPageX 0x34)), ([0xB5, 0x34], .lda (.zeroPageX 0x34)),
      ([0xB6, 0x34], .ldx (.zeroPageY 0x34)), ([0xB8], .clv),
      ([0xB9, 0x34, 0x12], .lda (.absoluteY 0x1234)), ([0xBA], .tsx),
      ([0xBC, 0x34, 0x12], .ldy (.absoluteX 0x1234)),
      ([0xBD, 0x34, 0x12], .lda (.absoluteX 0x1234)),
      ([0xBE, 0x34, 0x12], .ldx (.absoluteY 0x1234))] :
      List (List Byte × Instr)).all decodesTo = true := by
  decide +kernel

/-- The line Cx of the opcode table (30_encoding.md R64). -/
theorem test_decode_line_C :
    ([([0xC0, 0x34], .cpy (.immediate 0x34)), ([0xC1, 0x34], .cmp (.indexedIndirect 0x34)),
      ([0xC4, 0x34], .cpy (.zeroPage 0x34)), ([0xC5, 0x34], .cmp (.zeroPage 0x34)),
      ([0xC6, 0x34], .dec (.zeroPage 0x34)), ([0xC8], .iny),
      ([0xC9, 0x34], .cmp (.immediate 0x34)), ([0xCA], .dex),
      ([0xCC, 0x34, 0x12], .cpy (.absolute 0x1234)),
      ([0xCD, 0x34, 0x12], .cmp (.absolute 0x1234)), ([0xCE, 0x34, 0x12], .dec (.absolute 0x1234))] :
      List (List Byte × Instr)).all decodesTo = true := by
  decide +kernel

/-- The line Dx of the opcode table (30_encoding.md R64). -/
theorem test_decode_line_D :
    ([([0xD0, 0x34], .bne 0x34), ([0xD1, 0x34], .cmp (.indirectIndexed 0x34)),
      ([0xD5, 0x34], .cmp (.zeroPageX 0x34)), ([0xD6, 0x34], .dec (.zeroPageX 0x34)),
      ([0xD8], .cld), ([0xD9, 0x34, 0x12], .cmp (.absoluteY 0x1234)),
      ([0xDD, 0x34, 0x12], .cmp (.absoluteX 0x1234)),
      ([0xDE, 0x34, 0x12], .dec (.absoluteX 0x1234))] :
      List (List Byte × Instr)).all decodesTo = true := by
  decide +kernel

/-- The line Ex of the opcode table (30_encoding.md R64). -/
theorem test_decode_line_E :
    ([([0xE0, 0x34], .cpx (.immediate 0x34)), ([0xE1, 0x34], .sbc (.indexedIndirect 0x34)),
      ([0xE4, 0x34], .cpx (.zeroPage 0x34)), ([0xE5, 0x34], .sbc (.zeroPage 0x34)),
      ([0xE6, 0x34], .inc (.zeroPage 0x34)), ([0xE8], .inx),
      ([0xE9, 0x34], .sbc (.immediate 0x34)), ([0xEA], .nop),
      ([0xEC, 0x34, 0x12], .cpx (.absolute 0x1234)),
      ([0xED, 0x34, 0x12], .sbc (.absolute 0x1234)), ([0xEE, 0x34, 0x12], .inc (.absolute 0x1234))] :
      List (List Byte × Instr)).all decodesTo = true := by
  decide +kernel

/-- The line Fx of the opcode table (30_encoding.md R64). -/
theorem test_decode_line_F :
    ([([0xF0, 0x34], .beq 0x34), ([0xF1, 0x34], .sbc (.indirectIndexed 0x34)),
      ([0xF5, 0x34], .sbc (.zeroPageX 0x34)), ([0xF6, 0x34], .inc (.zeroPageX 0x34)),
      ([0xF8], .sed), ([0xF9, 0x34, 0x12], .sbc (.absoluteY 0x1234)),
      ([0xFD, 0x34, 0x12], .sbc (.absoluteX 0x1234)),
      ([0xFE, 0x34, 0x12], .inc (.absoluteX 0x1234))] :
      List (List Byte × Instr)).all decodesTo = true := by
  decide +kernel

/-- The table has 151 rows and each opcode byte once (30_encoding.md R60, R64). -/
theorem test_table_rows :
    opcodeTable.length = 151 ∧ (opcodeTable.map Descriptor.opcode).Nodup := by
  decide +kernel

/-- The 105 absent bytes are rejected by name (30_encoding.md R65). -/
theorem test_decode_absent :
    absentBytes.length = 105 ∧
      absentBytes.all (fun op => decide (decode [op, 0x00, 0x00] = .reject (.absentOpcode op))) = true := by
  decide +kernel

/-- The table numbering: bit 0 is the lowest bit of the first byte, and bits above `nbits` are 0. -/
theorem test_decodeTableWord :
    decodeTableWord 24 0x12348D = some (.sta (.absolute 0x1234)) ∧
    decodeTableWord 8 0xFFFFA9 = some (.lda (.immediate 0x00)) ∧
    decodeTableWord 8 0x0A = some (.asl .noAddressing) ∧ decodeTableWord 8 0x02 = none := by
  decide +kernel

/-- A step after `withFetchWord` runs the instruction placed (assumption 7). -/
theorem test_withFetchWord :
    after (State.reset.withFetchWord 16 0x80A9) (fun t => (t.a, t.p, t.pc)) = some (0x80, 0x80, 0x0002) ∧
    after (State.reset.withFetchWord 8 0xE8) (fun t => (t.x, t.pc)) = some (0x01, 0x0001) ∧
    after (State.reset.withFetchWord 24 0x90004C) (fun t => t.pc) = some 0x9000 := by
  decide +kernel

/-! ## One step of each instruction -/

/-- R109 example: `A9 80`. -/
theorem test_LDA :
    after (program 0x8000 [0xA9, 0x80])
      (fun t => (t.a, t.p, t.pc)) = some (0x80, 0x80, 0x8002) := by
  decide +kernel

/-- R110 corner case: `LDX $F0,Y` with Y = 0x20 reads 0x0010. -/
theorem test_LDX_zeroPageY :
    after { (State.writeByte 0x0010 0x77 (program 0x8000 [0xB6, 0xF0])) with y := 0x20 }
      (fun t => t.x) = some 0x77 := by
  decide +kernel

/-- R111 example. -/
theorem test_LDY :
    after (program 0x8000 [0xA0, 0xFF])
      (fun t => (t.y, t.p)) = some (0xFF, 0x80) := by
  decide +kernel

/-- R112 example. -/
theorem test_STA :
    after { program 0x8000 [0x85, 0x10] with a := 0x55 }
      (fun t => (t.readByte 0x0010, t.p)) = some (0x55, 0x00) := by
  decide +kernel

/-- R113 example. -/
theorem test_STX :
    after { program 0x8000 [0x8E, 0x00, 0x02] with x := 0x07 }
      (fun t => (t.readByte 0x0200, t.pc)) = some (0x07, 0x8003) := by
  decide +kernel

/-- R114 example: the index wraps in the zero page. -/
theorem test_STY :
    after { program 0x8000 [0x94, 0xFF] with x := 0x01, y := 0x33 }
      (fun t => t.readByte 0x0000) = some 0x33 := by
  decide +kernel

/-- R115 example. -/
theorem test_TAX :
    after { program 0x8000 [0xAA] with a := 0x05 }
      (fun t => (t.x, t.p, t.a)) = some (0x05, 0x00, 0x05) := by
  decide +kernel

/-- R116 example. -/
theorem test_TAY :
    after { program 0x8000 [0xA8] with a := 0x90 }
      (fun t => (t.y, t.p)) = some (0x90, 0x80) := by
  decide +kernel

/-- R117 example. -/
theorem test_TSX :
    after { program 0x8000 [0xBA] with sp := 0x00 }
      (fun t => (t.x, t.p)) = some (0x00, 0x02) := by
  decide +kernel

/-- R118 example. -/
theorem test_TXA :
    after { program 0x8000 [0x8A] with a := 0x11 }
      (fun t => (t.a, t.p)) = some (0x00, 0x02) := by
  decide +kernel

/-- R119 example: P unchanged. -/
theorem test_TXS :
    after { program 0x8000 [0x9A] with x := 0xFF }
      (fun t => (t.sp, t.p)) = some (0xFF, 0x00) := by
  decide +kernel

/-- R120 example. -/
theorem test_TYA :
    after { program 0x8000 [0x98] with y := 0x7F, p := 0x82 }
      (fun t => (t.a, t.p)) = some (0x7F, 0x00) := by
  decide +kernel

/-- R121 corner case: at S = 0x00. -/
theorem test_PHA :
    after { program 0x8000 [0x48] with a := 0x42, sp := 0x00 }
      (fun t => (t.readByte 0x0100, t.sp)) = some (0x42, 0xFF) := by
  decide +kernel

/-- R122 example. -/
theorem test_PHP :
    after { program 0x8000 [0x08] with p := 0x81 }
      (fun t => (t.readByte 0x01FD, t.sp, t.p)) = some (0xB1, 0xFC, 0x81) := by
  decide +kernel

/-- R123 corner case: at S = 0xFF it reads 0x0100. -/
theorem test_PLA :
    after { (State.writeByte 0x0100 0x90 (program 0x8000 [0x68])) with sp := 0xFF, a := 0x11 }
      (fun t => (t.a, t.sp, t.p)) = some (0x90, 0x00, 0x80) := by
  decide +kernel

/-- R124 corner case: pulling 0xFF leaves B and B2. -/
theorem test_PLP :
    after { (State.writeByte 0x01FD 0xFF (program 0x8000 [0x28])) with sp := 0xFC }
      (fun t => (t.p, t.sp)) = some (0xCF, 0xFD) := by
  decide +kernel

/-- R127 example. -/
theorem test_ADC :
    after { program 0x8000 [0x69, 0x50] with a := 0x50 }
      (fun t => (t.a, t.p)) = some (0xA0, 0xC0) := by
  decide +kernel

/-- R127 corner case: 0x80 + 0x80 + 0, with D = 1 binary (R126). -/
theorem test_ADC_carry :
    after { program 0x8000 [0x69, 0x80] with a := 0x80, p := 0x08 }
      (fun t => (t.a, t.p)) = some (0x00, 0x4B) := by
  decide +kernel

/-- R128 example. -/
theorem test_SBC :
    after { program 0x8000 [0xE9, 0xF0] with a := 0x50, p := 0x01 }
      (fun t => (t.a, t.p)) = some (0x60, 0x00) := by
  decide +kernel

/-- R128 corner case: 0x80 - 0x01 with C = 1. -/
theorem test_SBC_overflow :
    after { program 0x8000 [0xE9, 0x01] with a := 0x80, p := 0x01 }
      (fun t => (t.a, t.p)) = some (0x7F, 0x41) := by
  decide +kernel

/-- R130 corner case: A = 0x80, m = 0x00. -/
theorem test_CMP :
    after { program 0x8000 [0xC9, 0x00] with a := 0x80 }
      (fun t => (t.a, t.p)) = some (0x80, 0x81) := by
  decide +kernel

/-- R131 example. -/
theorem test_CPX :
    after { program 0x8000 [0xE0, 0x05] with x := 0x05 }
      (fun t => (t.x, t.p)) = some (0x05, 0x03) := by
  decide +kernel

/-- R132 corner case: Y = 0x00, m = 0x80. -/
theorem test_CPY :
    after (program 0x8000 [0xC0, 0x80])
      (fun t => (t.y, t.p)) = some (0x00, 0x80) := by
  decide +kernel

/-- R133 corner case: 0xFF becomes 0x00, C unchanged. -/
theorem test_INC :
    after { (State.writeByte 0x0010 0xFF (program 0x8000 [0xE6, 0x10])) with p := 0x01 }
      (fun t => (t.readByte 0x0010, t.p)) = some (0x00, 0x03) := by
  decide +kernel

/-- R134 example. -/
theorem test_INX :
    after { program 0x8000 [0xE8] with x := 0x7F }
      (fun t => (t.x, t.p)) = some (0x80, 0x80) := by
  decide +kernel

/-- R135 corner case: 0xFF becomes 0x00. -/
theorem test_INY :
    after { program 0x8000 [0xC8] with y := 0xFF }
      (fun t => (t.y, t.p)) = some (0x00, 0x02) := by
  decide +kernel

/-- R136 example. -/
theorem test_DEC :
    after (program 0x8000 [0xCE, 0x00, 0x02])
      (fun t => (t.readByte 0x0200, t.p)) = some (0xFF, 0x80) := by
  decide +kernel

/-- R137 example. -/
theorem test_DEX :
    after { program 0x8000 [0xCA] with x := 0x01 }
      (fun t => (t.x, t.p)) = some (0x00, 0x02) := by
  decide +kernel

/-- R138 corner case: 0x80 becomes 0x7F. -/
theorem test_DEY :
    after { program 0x8000 [0x88] with y := 0x80 }
      (fun t => (t.y, t.p)) = some (0x7F, 0x00) := by
  decide +kernel

/-- R139 example. -/
theorem test_AND :
    after { program 0x8000 [0x29, 0x3C] with a := 0xF0 }
      (fun t => (t.a, t.p)) = some (0x30, 0x00) := by
  decide +kernel

/-- R140 example. -/
theorem test_ORA :
    after { program 0x8000 [0x09, 0x80] with a := 0x01 }
      (fun t => (t.a, t.p)) = some (0x81, 0x80) := by
  decide +kernel

/-- R141 example. -/
theorem test_EOR :
    after { program 0x8000 [0x49, 0x0F] with a := 0xFF }
      (fun t => (t.a, t.p)) = some (0xF0, 0x80) := by
  decide +kernel

/-- R142 corner case: m = 0xC0, A = 0x3F. -/
theorem test_BIT :
    after { (State.writeByte 0x0010 0xC0 (program 0x8000 [0x24, 0x10])) with a := 0x3F }
      (fun t => (t.a, t.p)) = some (0x3F, 0xC2) := by
  decide +kernel

/-- R143 example. -/
theorem test_ASL :
    after { program 0x8000 [0x0A] with a := 0x41, p := 0x01 }
      (fun t => (t.a, t.p, t.pc)) = some (0x82, 0x80, 0x8001) := by
  decide +kernel

/-- R144 example. -/
theorem test_LSR :
    after { (State.writeByte 0x0010 0x03 (program 0x8000 [0x46, 0x10])) with a := 0x00 }
      (fun t => (t.readByte 0x0010, t.a, t.p)) = some (0x01, 0x00, 0x01) := by
  decide +kernel

/-- R145 example. -/
theorem test_ROL :
    after { program 0x8000 [0x2A] with a := 0x40, p := 0x01 }
      (fun t => (t.a, t.p)) = some (0x81, 0x80) := by
  decide +kernel

/-- R146 example. -/
theorem test_ROR :
    after { program 0x8000 [0x6A] with a := 0x02, p := 0x01 }
      (fun t => (t.a, t.p)) = some (0x81, 0x80) := by
  decide +kernel

/-- R148 example. -/
theorem test_BPL :
    after (program 0x8000 [0x10, 0x10])
      (fun t => t.pc) = some 0x8012 := by
  decide +kernel

/-- R149 example: not taken. -/
theorem test_BMI :
    after (program 0x8000 [0x30, 0x10])
      (fun t => t.pc) = some 0x8002 := by
  decide +kernel

/-- R150 example. -/
theorem test_BVC :
    after (program 0x8000 [0x50, 0x80])
      (fun t => t.pc) = some 0x7F82 := by
  decide +kernel

/-- R151 example. -/
theorem test_BVS :
    after { program 0x8000 [0x70, 0x7F] with p := 0x40 }
      (fun t => t.pc) = some 0x8081 := by
  decide +kernel

/-- R152 example: not taken. -/
theorem test_BCC :
    after { program 0x8000 [0x90, 0x10] with p := 0x01 }
      (fun t => t.pc) = some 0x8002 := by
  decide +kernel

/-- R153 example: the branch itself. -/
theorem test_BCS :
    after { program 0x8000 [0xB0, 0xFE] with p := 0x01 }
      (fun t => t.pc) = some 0x8000 := by
  decide +kernel

/-- R147 example. -/
theorem test_BNE :
    after (program 0x8010 [0xD0, 0xFB])
      (fun t => t.pc) = some 0x800D := by
  decide +kernel

/-- R155 example: the target wraps. -/
theorem test_BEQ :
    after { program 0xFFF0 [0xF0, 0x20] with p := 0x02 }
      (fun t => t.pc) = some 0x0012 := by
  decide +kernel

/-- R156 example. -/
theorem test_JMP :
    after (program 0x8000 [0x4C, 0x00, 0x90])
      (fun t => t.pc) = some 0x9000 := by
  decide +kernel

/-- R101 example: the pointer 0x01FF crosses its page. -/
theorem test_JMP_indirect :
    after (State.writeByte 0x0100 0x56 (State.writeByte 0x0200 0x12 (State.writeByte 0x01FF 0x34 (program 0x8000 [0x6C, 0xFF, 0x01]))))
      (fun t => t.pc) = some 0x1234 := by
  decide +kernel

/-- R157 example. -/
theorem test_JSR :
    after (program 0x8000 [0x20, 0x00, 0x90])
      (fun t => (t.readByte 0x01FD, t.readByte 0x01FC, t.sp, t.pc)) = some (0x80, 0x02, 0xFB, 0x9000) := by
  decide +kernel

/-- R158 example. -/
theorem test_RTS :
    after { (State.writeByte 0x01FD 0x80 (State.writeByte 0x01FC 0x02 (program 0x8000 [0x60]))) with sp := 0xFB }
      (fun t => (t.pc, t.sp)) = some (0x8003, 0xFD) := by
  decide +kernel

/-- R159 example. -/
theorem test_RTI :
    after { (State.writeByte 0x01FD 0x12 (State.writeByte 0x01FC 0x34 (State.writeByte 0x01FB 0x01 (program 0x8000 [0x40])))) with sp := 0xFA }
      (fun t => (t.p, t.pc, t.sp)) = some (0x01, 0x1234, 0xFD) := by
  decide +kernel

/-- R160 example. -/
theorem test_CLC :
    after { program 0x8000 [0x18] with p := 0x01 }
      (fun t => t.p) = some 0x00 := by
  decide +kernel

/-- R161 example. -/
theorem test_SEC :
    after { program 0x8000 [0x38] with p := 0x00 }
      (fun t => t.p) = some 0x01 := by
  decide +kernel

/-- R162 example. -/
theorem test_CLI :
    after { program 0x8000 [0x58] with p := 0x04 }
      (fun t => t.p) = some 0x00 := by
  decide +kernel

/-- R163 example. -/
theorem test_SEI :
    after { program 0x8000 [0x78] with p := 0x00 }
      (fun t => t.p) = some 0x04 := by
  decide +kernel

/-- R164 example. -/
theorem test_CLV :
    after { program 0x8000 [0xB8] with p := 0x40 }
      (fun t => t.p) = some 0x00 := by
  decide +kernel

/-- R165 example. -/
theorem test_CLD :
    after { program 0x8000 [0xD8] with p := 0x08 }
      (fun t => t.p) = some 0x00 := by
  decide +kernel

/-- R166 example. -/
theorem test_SED :
    after { program 0x8000 [0xF8] with p := 0x00 }
      (fun t => t.p) = some 0x08 := by
  decide +kernel

/-- R167 example. -/
theorem test_NOP :
    after (program 0x8000 [0xEA])
      (fun t => (t.pc, t.p, t.sp)) = some (0x8001, 0x00, 0xFD) := by
  decide +kernel

/-- R168 corner case: BRK at 0xFFFF leaves PC = 0x0000. -/
theorem test_BRK :
    after (program 0xFFFF [0x00])
      (fun t => (t.runState, t.pc)) = some (.halted (.brk 0xFFFF), 0x0000) := by
  decide +kernel

/-- R168 example: the program `A9 00 00`, loaded, reset and run. -/
theorem test_program_from_load :
    ((State.reset.load [0xA9, 0x00, 0x00]).map fun s =>
      let r := run 5 s.hostReset
      (r.1, r.2.pc, r.2.a, r.2.p)) = some (.halted (.brk 0x8002), 0x8003, 0x00, 0x02) := by
  decide +kernel

/-- R101 example with `JMP_IND_PAGE_WRAP`: the high byte comes from the start of the page. -/
theorem test_JMP_indirect_page_wrap :
    after { (State.writeByte 0x0100 0x56 (State.writeByte 0x01FF 0x34 (program 0x8000 [0x6C, 0xFF, 0x01]))) with
        config := { Config.default with jmpIndPageWrap := true } } (fun t => t.pc) = some 0x5634 := by
  decide +kernel

/-- R102 and R103 examples: the pointer in the zero page, and its wrap. -/
theorem test_zero_page_pointers :
    after { (State.writeByte 0x2074 0x99 (State.writeByte 0x0025 0x20 (State.writeByte 0x0024 0x74
        (program 0x8000 [0xA1, 0x20])))) with x := 0x04 } (fun t => t.a) = some 0x99 ∧
    after { (State.writeByte 0x0001 0x66 (State.writeByte 0x0087 0xFF (State.writeByte 0x0086 0xFF
        (program 0x8000 [0xB1, 0x86])))) with y := 0x02 } (fun t => t.a) = some 0x66 := by
  decide +kernel

/-! ## A witness for the hypotheses of each statement -/

theorem witness_DecodeOfEncodeIsTheInstruction :
    (Instr.jmp (.indirect 0xFFFF)).wellFormed = true ∧ (Instr.bpl 0xFF).wellFormed = true := by
  decide

theorem witness_EncodeOfDecodeIsTheBytes :
    decode [0x6C, 0xFF, 0xFF, 0x00] = .ok (.jmp (.indirect 0xFFFF)) [0x00] := by
  decide +kernel

/-- The first and the last absent byte, at the last address. -/
theorem witness_AbsentBytesAreRejectedAndHalt :
    ([0x02, 0xFF] : List Byte).all (fun op =>
      let s := program 0xFFFF [op]
      decide (s.runState = .running) && decide (s.readByte s.pc ∈ absentBytes)) = true := by
  decide +kernel

theorem witness_OpcodeByteAloneFixesModeAndLength :
    decode [0x8D, 0x00, 0x00] = .ok (.sta (.absolute 0x0000)) [] ∧
    decode [0x8D, 0xFF, 0xFF, 0x01] = .ok (.sta (.absolute 0xFFFF)) [0x01] := by
  decide +kernel

/-- An instruction of each mode, its operand bytes crossing the top of memory. -/
theorem witness_OperandsAreAssembledFromTheFollowingBytes :
    ([(0xEA, .noAddressing), (0xA9, .immediate), (0xA5, .zeroPage), (0xB5, .zeroPageX),
      (0xB6, .zeroPageY), (0xA1, .indexedIndirect), (0xB1, .indirectIndexed), (0xD0, .relative),
      (0xAD, .absolute), (0xBD, .absoluteX), (0xB9, .absoluteY), (0x6C, .indirect)] :
      List (Byte × Mode)).all (fun c =>
        match decode (fetchBytes (program 0xFFFE [c.1, 0xFF, 0xFF])) with
        | .ok i _ => decide (i.mode = c.2)
        | .reject _ => false) = true := by
  decide +kernel

theorem witness_WordWriteThenReadReturnsTheWord :
    Memory.wf [(0xFFFF, 0x01)] = true ∧ (0x0001 : Word) ≠ 0xFFFF ∧ (0x0001 : Word) ≠ 0xFFFF + 1 := by
  decide

theorem witness_SetFlagPerturbsNothingElse : (7 : Nat) ≠ Flag.C.bit ∧ (0 : Nat) ≠ Flag.N.bit := by
  decide

theorem witness_LoadsCopyTheOperandAndSetZN :
    (Instr.lda (.indirectIndexed 0xFF)).wellFormed = true ∧ (Instr.ldx (.absoluteY 0xFFFF)).wellFormed = true ∧
    (Instr.ldy (.zeroPageX 0xFF)).wellFormed = true := by
  decide

theorem witness_StoresWriteTheRegisterAndNoFlag :
    (Instr.sta (.indexedIndirect 0xFF)).wellFormed = true ∧ (Instr.stx (.zeroPageY 0xFF)).wellFormed = true ∧
    (Instr.sty (.absolute 0xFFFF)).wellFormed = true ∧ State.reset.Canonical := by
  decide

/-- Both ways not to be refused: `binary` with D = 1, `refuse` with D = 0. -/
theorem witness_AdcAddsWithCarry :
    (Instr.adc (.absoluteX 0xFFFF)).wellFormed = true ∧
    ([{ State.reset with p := 0x08 },
      { State.reset with config := { Config.default with decimalArith := .refuse } }] : List State).all
      (fun s => !(decide (s.config.decimalArith = .refuse) && s.flag .D)) = true := by
  decide

theorem witness_SbcSubtractsWithBorrow :
    (Instr.sbc (.immediate 0xFF)).wellFormed = true ∧
    ([{ State.reset with p := 0x08 },
      { State.reset with config := { Config.default with decimalArith := .refuse } }] : List State).all
      (fun s => !(decide (s.config.decimalArith = .refuse) && s.flag .D)) = true := by
  decide

/-- D = 1 under `refuse`, with an ADC and with an SBC at PC; and each way not to be refused: `binary` with D = 1,
`refuse` with D = 0. -/
theorem witness_DecimalModeRefusesOnlyWhenAsked :
    ([[0x69, 0x01], [0xE9, 0x01]] : List (List Byte)).all (fun bytes =>
      let s := { program 0x8000 bytes with
        p := 0x08, config := { Config.default with decimalArith := .refuse } }
      decide (s.runState = .running) && decide (s.config.decimalArith = .refuse) && s.flag .D &&
      match decode (fetchBytes s) with
      | .ok i _ => (decide (i.mnemonic = .ADC) || decide (i.mnemonic = .SBC)) &&
          !s.config.unimplemented.contains i.mnemonic
      | .reject _ => false) = true ∧
    ([{ State.reset with p := 0x08 },
      { State.reset with config := { Config.default with decimalArith := .refuse } }] : List State).all
      (fun s => decide (s.config.decimalArith = .binary) || !s.flag .D) = true ∧
    (Instr.adc (.indirectIndexed 0xFF)).wellFormed = true ∧
    (Instr.sbc (.absoluteY 0xFFFF)).wellFormed = true := by
  decide +kernel

theorem witness_ComparesWriteThreeFlagsAndNoRegister :
    (Instr.cmp (.indirectIndexed 0xFF)).wellFormed = true ∧ (Instr.cpx (.immediate 0xFF)).wellFormed = true ∧
    (Instr.cpy (.absolute 0xFFFF)).wellFormed = true := by
  decide

theorem witness_IncAndDecModifyOneByte :
    (Instr.inc (.absoluteX 0xFFFF)).wellFormed = true ∧ (Instr.dec (.zeroPageX 0xFF)).wellFormed = true ∧
    State.reset.Canonical := by
  decide

theorem witness_LogicCombinesAWithTheOperand :
    (Instr.and (.immediate 0xFF)).wellFormed = true ∧ (Instr.ora (.absoluteY 0xFFFF)).wellFormed = true ∧
    (Instr.eor (.indexedIndirect 0xFF)).wellFormed = true := by
  decide

theorem witness_BitTestsWithoutWritingA :
    (Instr.bit (.zeroPage 0xFF)).wellFormed = true ∧ (Instr.bit (.absolute 0xFFFF)).wellFormed = true := by
  decide

theorem witness_ShiftsMoveTheOuterBitIntoCarry :
    (Instr.asl (.absoluteX 0xFFFF)).wellFormed = true ∧ Operand.absoluteX 0xFFFF ≠ .noAddressing ∧
    (Instr.lsr (.zeroPage 0xFF)).wellFormed = true ∧ Operand.zeroPage 0xFF ≠ .noAddressing := by
  decide

theorem witness_RotatesGoThroughCarry :
    (Instr.rol (.absoluteX 0xFFFF)).wellFormed = true ∧ Operand.absoluteX 0xFFFF ≠ .noAddressing ∧
    (Instr.ror (.zeroPage 0xFF)).wellFormed = true ∧ Operand.zeroPage 0xFF ≠ .noAddressing := by
  decide

theorem witness_PushesStoreAtTheStackByteThenDecrement :
    ({ State.reset with sp := 0x00 } : State).Canonical ∧ (0x01FF : Word) ≠ stackCell 0x00 := by
  decide

theorem witness_PullAfterPushRestores :
    let s := { State.reset with a := 0x42, p := 0xFF, sp := 0x00 }
    s.Canonical ∧ (∃ t, exec .pha s = .next t) ∧ (∃ t, exec .php s = .next t) ∧
      Flag.N ≠ .B ∧ Flag.N ≠ .B2 :=
  ⟨by decide, ⟨_, rfl⟩, ⟨_, rfl⟩, by decide, by decide⟩

theorem witness_JmpSetsPcToTheAddress :
    (Instr.jmp (.absolute 0xFFFF)).wellFormed = true ∧ (Instr.jmp (.indirect 0xFFFF)).wellFormed = true := by
  decide

/-- S = 0x00: the pushes wrap, and the two cells are 0x0100 and 0x01FF. -/
theorem witness_JsrPushesTheReturnAddressAndJumps :
    ({ State.reset with sp := 0x00 } : State).Canonical ∧ (0x0101 : Word) ≠ stackCell 0x00 ∧
      (0x0101 : Word) ≠ stackCell (0x00 + 255) := by
  decide

theorem witness_RtsAfterJsrReturnsToTheNextInstruction :
    let s := { State.reset with pc := 0xFFFE, sp := 0x00 }
    s.Canonical ∧ ∃ t, exec (.jsr 0x9000) s = .next t :=
  ⟨by decide, ⟨_, rfl⟩⟩

theorem witness_BrkHaltsAtItsAddress :
    let s := program 0xFFFF [0x00]
    s.runState = .running ∧ s.readByte s.pc = 0x00 ∧ s.config.unimplemented.contains .BRK = false := by
  decide

theorem witness_StepRunsTheDecodedInstruction :
    let s := program 0xFFFE [0x8D, 0x34, 0x12]
    s.runState = .running ∧
    decode [s.readByte s.pc, s.readByte (s.pc + 1), s.readByte (s.pc + 2)] = .ok (.sta (.absolute 0x1234)) [] ∧
    s.config.unimplemented.contains (Instr.sta (.absolute 0x1234)).mnemonic = false := by
  decide +kernel

theorem witness_NoStepUnlessRunning :
    (State.construct Config.default [] State.reset).runState = .unreset ∧
    ({ State.reset with runState := .halted (.brk 0x8002) } : State).runState = .halted (.brk 0x8002) ∧
    step (State.construct Config.default [] State.reset) = .fault .notReset :=
  ⟨rfl, rfl, rfl⟩

theorem witness_DecodeFailureHaltsWithByteAndAddress :
    let s := program 0xFFFF [0x02]
    s.runState = .running ∧ s.readByte s.pc ∈ absentBytes := by
  decide +kernel

/-- An RTI in `UNIMPLEMENTED` under each policy, and a step with the set empty. -/
theorem witness_UnimplementedMnemonicsFollowThePolicy :
    ([.strictFail, .permissiveSkip] : List UnimplPolicy).all (fun policy =>
      let s := { program 0xFFFF [0x40] with
        config := { Config.default with unimplemented := [.RTI], unimplPolicy := policy } }
      decide (s.runState = .running) &&
      decide (decode (fetchBytes s) = .ok .rti [0x00, 0x00]) &&
      decide (Instr.rti.mnemonic ∈ s.config.unimplemented)) = true ∧
    (State.reset.config.unimplemented = [] ∧ (after State.reset fun t => t.pc) = some 0x0001) := by
  decide +kernel

/-- A step that halts, for each reason a step can give. -/
theorem witness_HaltsArePrecise :
    after (program 0x8000 [0x00]) State.runState = some (.halted (.brk 0x8000)) ∧
    after (program 0x8000 [0x02]) State.runState = some (.halted (.decodeError 0x02 0x8000)) ∧
    after { program 0x8000 [0xEA] with
        config := { Config.default with unimplemented := [.NOP], unimplPolicy := .strictFail } }
      State.runState = some (.halted (.unimplemented .NOP 0x8000)) := by
  decide +kernel

theorem witness_ResolverMisuseIsNeverReachedByAStep :
    (Instr.sta (.immediate 0x00)).wellFormed = false ∧ (Instr.adc .noAddressing).wellFormed = false ∧
    State.reset.config.decimalArith ≠ .refuse ∧
    (after (program 0x8000 [0xEA]) State.runState) = some .running := by
  decide +kernel

/-- A branch not taken, a branch taken to the next instruction, and a subroutine call. -/
theorem witness_ProgramCounterAfterAStep :
    ([[0xF0, 0x10], [0xD0, 0x00], [0x20, 0x00, 0x90]] : List (List Byte)).all (fun bytes =>
      let s := program 0xFFFE bytes
      match decode (fetchBytes s) with
      | .ok i _ => !s.config.unimplemented.contains i.mnemonic &&
          decide (after s State.runState = some .running)
      | .reject _ => false) = true := by
  decide +kernel

theorem witness_OnlyTheListedInstructionsWriteCarryOrOverflow :
    (∃ t, exec .nop State.reset = .next t) ∧ Instr.nop.mnemonic ∉ [Mnemonic.ADC, .CLC, .CLV] :=
  ⟨⟨_, rfl⟩, by decide⟩

theorem witness_OnlyTheListedInstructionsWriteTheOtherFlags :
    (∃ t, exec (.sta (.absolute 0xFFFF)) State.reset = .next t) ∧
      (Instr.sta (.absolute 0xFFFF)).mnemonic ∉ [Mnemonic.SED, .CLD, .SEI, .CLI, .PLP, .RTI] :=
  ⟨⟨_, rfl⟩, by decide⟩

/-- The accumulator form, which writes no memory, and a memory form, which does not write A. -/
theorem witness_OnlyTheListedInstructionsWriteRegistersOrMemory :
    (∃ t, exec (.asl .noAddressing) State.reset = .next t) ∧
    (Instr.asl .noAddressing).mnemonic ∈ [Mnemonic.ASL, .LSR, .ROL, .ROR] ∧
    (Instr.asl .noAddressing).mode = .noAddressing ∧
    (∃ t, exec (.asl (.zeroPage 0x00)) State.reset = .next t) ∧
    ¬ (Instr.asl (.zeroPage 0x00)).mode = .noAddressing :=
  ⟨⟨_, rfl⟩, by decide, by decide, ⟨_, rfl⟩, by decide⟩

/-- A step that logs, one that does not, an instruction, and a load. -/
theorem witness_OnlyUnimplementedMnemonicsAreLogged :
    after { program 0x8000 [0xEA] with config := { Config.default with unimplemented := [.NOP] } }
      State.diagnostics = some [.unimplementedMnemonic .NOP 0x8000] ∧
    after (program 0x8000 [0xEA]) State.diagnostics = some [] ∧
    (State.reset.load [0xEA]).isSome = true := by
  decide +kernel

theorem witness_StepsKeepTheParameters :
    after (program 0x8000 [0xEA]) State.runState = some .running ∧
    after (program 0x8000 [0x00]) State.runState = some (.halted (.brk 0x8000)) := by
  decide +kernel

theorem witness_InertFlagsNeverChangeAResult :
    (Flag.D = .D ∧ State.reset.config.decimalArith = .binary) ∧ (Instr.adc (.immediate 0x99)).mnemonic ≠ .PHP ∧
      (0x0100 : Word) ≠ stackCell State.reset.sp.toNat := by
  decide

/-- A step that stores to the last address. -/
theorem witness_EveryStepKeepsMemoryCanonical :
    let s := { program 0x8000 [0x8D, 0xFF, 0xFF] with a := 0x55 }
    s.Canonical ∧ after s (fun t => t.readByte 0xFFFF) = some 0x55 := by
  decide +kernel

theorem witness_BreakBitsStayClearFromReset :
    (∃ t, StepsTo 1 State.reset.hostReset t) ∧ State.reset.Canonical :=
  ⟨⟨_, .tail (.refl _) rfl⟩, by decide⟩

/-- A run that runs out of its fuel, and one that halts at its last step. -/
theorem witness_RunStopsAtAHaltOrAtItsFuel :
    (run 1 (program 0x8000 [0xEA, 0x00])).1 = .outOfFuel ∧
    (run 2 (program 0x8000 [0xEA, 0x00])).1 = .halted (.brk 0x8001) := by
  decide +kernel

/-- The longest program that is loaded, the shortest that is refused, and a byte of a loaded one. -/
theorem witness_LoadCopiesTheProgramAndSetsTheVector :
    (List.replicate 0x8000 (0x00 : Byte)).length ≤ 0x8000 ∧
    0x8000 < (List.replicate 0x8001 (0x00 : Byte)).length ∧ State.reset.Canonical ∧
    (0x7FFF < (List.replicate 0x8000 (0x00 : Byte)).length ∧ 0x7FFF ≠ 0x7FFC ∧ 0x7FFF ≠ 0x7FFD) ∧
    ((0x7FFF : Word).toNat < 0x8000 ∧ (0x7FFF : Word) ≠ 0xFFFC ∧ (0x7FFF : Word) ≠ 0xFFFD) := by
  simp only [List.length_replicate]
  decide

theorem witness_ResetAfterLoadStartsAtTheProgram :
    State.reset.Canonical ∧ [(0xEA : Byte), 0x00].length ≤ 0x7FFC ∧
      ∃ t, State.reset.load [0xEA, 0x00] = some t :=
  ⟨by decide, by decide, ⟨_, rfl⟩⟩

/-- A register that is read back and another that is not written, a bit of P and the bits beside it, and a cell
at the end of memory. -/
theorem witness_HostWritesTakeTheValueReduced :
    State.reset.runState ≠ .unreset ∧ Reg.A ≠ .PC ∧ State.reset.Canonical ∧
    (Flag.Z ≠ .C ∧ Flag.V ≠ .N ∧ Flag.B ≠ .B2) ∧ (0x0000 : Word) ≠ 0xFFFF := by
  decide

/-- R87: the host writes one bit of P, 1 over 0 and 0 over 1, and no other bit. -/
theorem test_poke_bit :
    (State.reset.poke (.bit .N true)).p = 0x80 ∧
    ({ State.reset with p := 0xFF }.poke (.bit .C false)).p = 0xFE := by
  decide

end Sys2Proof.Tests
end

section
/-! PROOF. The control part of the state (run state, diagnostics log, parameters): what an instruction and a
step do to it. -/

namespace Sys2Proof.Machine

/-- The run state, the diagnostics log and the parameters of `t` are those of `s`. -/
structure SameControl (s t : State) : Prop where
  runState : t.runState = s.runState
  diagnostics : t.diagnostics = s.diagnostics
  config : t.config = s.config

/-- Where the answer `r` of a handler entered with `s` is a next state, the handler has either kept the control
part of `s`, or done nothing but raise a halt that records its opcode's address (60_exceptions.md R175). -/
def KeepsControlOrHalts (s : State) (r : Result) : Prop :=
  ∀ t, r = .next t →
    SameControl s t ∨ ∃ reason, haltAddr reason = opcodeAddr s ∧ t = raiseHalt reason s

/-! ## The ends of a handler -/

theorem complete_keepsControlOrHalts {s u : State} {m : Mode} (h : SameControl s u) :
    KeepsControlOrHalts s (complete m u) := by
  intro t ht
  obtain rfl := complete_eq_next.mp ht
  exact .inl ⟨h.runState, h.diagnostics, h.config⟩

theorem redirect_keepsControlOrHalts {s u : State} {w : Word} (h : SameControl s u) :
    KeepsControlOrHalts s (redirect w u) := by
  intro t ht
  obtain rfl := redirect_eq_next.mp ht
  exact .inl ⟨h.runState, h.diagnostics, h.config⟩

theorem halt_keepsControlOrHalts {s : State} {reason : HaltReason} (h : haltAddr reason = opcodeAddr s) :
    KeepsControlOrHalts s (.next (raiseHalt reason s)) := by
  intro t ht
  cases ht
  exact .inr ⟨reason, h, rfl⟩

theorem refused_keepsControlOrHalts (s : State) (r : Refusal) : KeepsControlOrHalts s (.refused r) :=
  fun _ ht => nomatch ht

/-! ## The shared handlers -/

theorem withOperand_keepsControlOrHalts {m : Mnemonic} {o : Operand} {k : Byte → State → State} {s : State}
    (hk : ∀ v, SameControl s (k v s)) : KeepsControlOrHalts s (withOperand m o k s) := by
  obtain ⟨v, -, -, h⟩ | h := withOperand_cases m o k s
  · rw [h]; exact complete_keepsControlOrHalts (hk v)
  · rw [h]; exact halt_keepsControlOrHalts rfl

theorem withAddress_keepsControlOrHalts {m : Mnemonic} {o : Operand} {k : Word → State → Result} {s : State}
    (hk : ∀ ea, KeepsControlOrHalts s (k ea s)) : KeepsControlOrHalts s (withAddress m o k s) := by
  obtain ⟨ea, -, -, h⟩ | h := withAddress_cases m o k s
  · rw [h]; exact hk ea
  · rw [h]; exact halt_keepsControlOrHalts rfl

theorem storeOperand_keepsControlOrHalts (m : Mnemonic) (o : Operand) (v : Byte) (s : State) :
    KeepsControlOrHalts s (storeOperand m o v s) :=
  withAddress_keepsControlOrHalts fun _ => complete_keepsControlOrHalts ⟨rfl, rfl, rfl⟩

theorem modifyMemory_keepsControlOrHalts {m : Mnemonic} {o : Operand} {f : Byte → Byte}
    {flags : Byte → State → State} {s : State} (hf : ∀ v u, SameControl u (flags v u)) :
    KeepsControlOrHalts s (modifyMemory m o f flags s) :=
  withAddress_keepsControlOrHalts fun ea =>
    have h := hf (s.readByte ea) (s.writeByte ea (f (s.readByte ea)))
    complete_keepsControlOrHalts ⟨h.runState, h.diagnostics, h.config⟩

theorem shiftOperand_keepsControlOrHalts (m : Mnemonic) (o : Operand) (f : Byte → Shifted) (s : State) :
    KeepsControlOrHalts s (shiftOperand m o f s) := by
  obtain ⟨-, h⟩ | ⟨ea, -, -, h⟩ | h := shiftOperand_cases m o f s
  · rw [h]; exact complete_keepsControlOrHalts ⟨rfl, rfl, rfl⟩
  · rw [h]; exact complete_keepsControlOrHalts ⟨rfl, rfl, rfl⟩
  · rw [h]; exact halt_keepsControlOrHalts rfl

theorem branch_keepsControlOrHalts (cond : Bool) (off : Byte) (s : State) :
    KeepsControlOrHalts s (branch cond off s) := by
  rw [branch_shape]
  exact redirect_keepsControlOrHalts ⟨rfl, rfl, rfl⟩

/-! ## Every instruction and every step -/

/-- An instruction keeps run state, log and parameters, or only raises a halt at its own address. -/
theorem exec_keepsControlOrHalts (i : Instr) (s : State) : KeepsControlOrHalts s (exec i s) := by
  cases i <;> simp only [exec]
  case lda | ldx | ldy | cmp | cpx | cpy | and | ora | eor | bit =>
    refine withOperand_keepsControlOrHalts ?_
    exact fun _ => ⟨rfl, rfl, rfl⟩
  case adc | sbc =>
    simp only [execAdc, execSbc]
    split
    · exact refused_keepsControlOrHalts s _
    · exact withOperand_keepsControlOrHalts fun _ => ⟨rfl, rfl, rfl⟩
  case sta | stx | sty => exact storeOperand_keepsControlOrHalts _ _ _ s
  case inc | dec =>
    refine modifyMemory_keepsControlOrHalts ?_
    exact fun _ _ => ⟨rfl, rfl, rfl⟩
  case asl | lsr | rol | ror => exact shiftOperand_keepsControlOrHalts _ _ _ s
  case bpl | bmi | bvc | bvs | bcc | bcs | bne | beq => exact branch_keepsControlOrHalts _ _ s
  case jmp =>
    exact withAddress_keepsControlOrHalts fun _ => redirect_keepsControlOrHalts ⟨rfl, rfl, rfl⟩
  case jsr | rts | rti => exact redirect_keepsControlOrHalts ⟨rfl, rfl, rfl⟩
  case tax | tay | tsx | txa | txs | tya | pha | php | pla | plp | inx | iny | dex | dey
      | clc | sec | cli | sei | clv | cld | sed | nop =>
    exact complete_keepsControlOrHalts ⟨rfl, rfl, rfl⟩
  case brk => exact halt_keepsControlOrHalts rfl

@[simp] theorem opcodeAddr_fetched (s : State) : opcodeAddr (fetched s) = s.pc :=
  BitVec.add_sub_cancel s.pc 1

/-- A step leaves the machine Running with its parameters, or only halts it after the opcode fetch, with the
opcode's address recorded (10_state.md R33; 60_exceptions.md R175). -/
theorem step_running_or_halts {s t : State} (h : step s = .next t) :
    (t.runState = .running ∧ t.config = s.config) ∨
      ∃ reason, haltAddr reason = s.pc ∧ t = raiseHalt reason (fetched s) := by
  obtain ⟨hrun, ⟨_, -, rfl⟩ | ⟨i, _, -, ⟨-, rfl⟩ | ⟨-, hexec⟩⟩⟩ := step_cases h
  case inl => exact .inr ⟨_, rfl, rfl⟩
  case inr.inl =>
    obtain ⟨-, hu⟩ | ⟨-, hu⟩ := handleUnimplemented_cases i s
    · exact .inr ⟨_, rfl, hu⟩
    · rw [hu]; exact .inl ⟨hrun, rfl⟩
  case inr.inr =>
    obtain hkeep | ⟨reason, haddr, rfl⟩ := exec_keepsControlOrHalts i (fetched s) t hexec
    · exact .inl ⟨hkeep.runState.trans hrun, hkeep.config⟩
    · exact .inr ⟨reason, haddr.trans (opcodeAddr_fetched s), rfl⟩

/-- Settles O50: a step either keeps Running and the parameters or only raises a halt. -/
theorem stepsKeepTheParameters : Obligations.StepsKeepTheParameters := by
  intro s t h
  obtain ⟨hrun, hconfig⟩ | ⟨reason, -, rfl⟩ := step_running_or_halts h
  · exact ⟨hconfig, .inl hrun⟩
  · exact ⟨rfl, .inr ⟨reason, rfl⟩⟩

end Sys2Proof.Machine
end

section
/-! PROOF. The footprint of an instruction: which registers and flags it may write and whether it may store, and
that every instruction and every step stays within it and keeps the memory canonical. -/

namespace Sys2Proof.Machine

/-! ## Footprints -/

/-- The registers and flags that may be written, and whether memory may be. -/
structure Footprint where
  regs : List Reg
  flags : List Flag
  stores : Bool

/-- From `s` to `t` nothing outside the footprint is written, and the memory stays canonical. PC and the control
part of the state are not spoken of. -/
structure StaysWithin (w : Footprint) (s t : State) : Prop where
  a : .A ∉ w.regs → t.a = s.a
  x : .X ∉ w.regs → t.x = s.x
  y : .Y ∉ w.regs → t.y = s.y
  sp : .S ∉ w.regs → t.sp = s.sp
  flag : ∀ f, f ∉ w.flags → t.flag f = s.flag f
  mem : w.stores = false → t.mem = s.mem
  canonical : s.Canonical → t.Canonical

/-- The accumulator forms write A and store nothing, the memory forms the other way round (30_encoding.md R69). -/
def shiftFootprint : Operand → Footprint
  | .noAddressing => ⟨[.A], [.C, .Z, .N], false⟩
  | _ => ⟨[], [.C, .Z, .N], true⟩

/-- What the rule of each instruction writes (10_state.md R18, R21; 42_load_store.md to 47_flags_misc.md). -/
def footprint : Instr → Footprint
  | .lda _ | .txa | .tya | .and _ | .ora _ | .eor _ => ⟨[.A], [.Z, .N], false⟩
  | .ldx _ | .tax | .tsx | .inx | .dex => ⟨[.X], [.Z, .N], false⟩
  | .ldy _ | .tay | .iny | .dey => ⟨[.Y], [.Z, .N], false⟩
  | .pla => ⟨[.A, .S], [.Z, .N], false⟩
  | .adc _ | .sbc _ => ⟨[.A], [.C, .V, .Z, .N], false⟩
  | .cmp _ | .cpx _ | .cpy _ => ⟨[], [.C, .Z, .N], false⟩
  | .bit _ => ⟨[], [.V, .Z, .N], false⟩
  | .inc _ | .dec _ => ⟨[], [.Z, .N], true⟩
  | .asl o | .lsr o | .rol o | .ror o => shiftFootprint o
  | .sta _ | .stx _ | .sty _ => ⟨[], [], true⟩
  | .pha | .php | .jsr _ => ⟨[.S], [], true⟩
  | .txs | .rts => ⟨[.S], [], false⟩
  | .plp | .rti => ⟨[.S], [.N, .V, .D, .I, .Z, .C], false⟩
  | .clc | .sec => ⟨[], [.C], false⟩
  | .cli | .sei => ⟨[], [.I], false⟩
  | .clv => ⟨[], [.V], false⟩
  | .cld | .sed => ⟨[], [.D], false⟩
  | .bpl _ | .bmi _ | .bvc _ | .bvs _ | .bcc _ | .bcs _ | .bne _ | .beq _ | .jmp _ | .nop | .brk =>
    ⟨[], [], false⟩

namespace StaysWithin

variable {w : Footprint} {s t : State}

theorem refl : StaysWithin w s s :=
  ⟨fun _ => rfl, fun _ => rfl, fun _ => rfl, fun _ => rfl, fun _ _ => rfl, fun _ => rfl, id⟩

/-! ## The updates of one field -/

theorem setA (h : StaysWithin w s t) (v : Byte) (hw : .A ∈ w.regs := by decide) :
    StaysWithin w s (t.setA v) :=
  { h with a := fun hn => absurd hw hn }

theorem setX (h : StaysWithin w s t) (v : Byte) (hw : .X ∈ w.regs := by decide) :
    StaysWithin w s (t.setX v) :=
  { h with x := fun hn => absurd hw hn }

theorem setY (h : StaysWithin w s t) (v : Byte) (hw : .Y ∈ w.regs := by decide) :
    StaysWithin w s (t.setY v) :=
  { h with y := fun hn => absurd hw hn }

theorem setSp (h : StaysWithin w s t) (v : Byte) (hw : .S ∈ w.regs := by decide) :
    StaysWithin w s (t.setSp v) :=
  { h with sp := fun hn => absurd hw hn }

theorem setPc (h : StaysWithin w s t) (v : Word) : StaysWithin w s (t.setPc v) := { h with }

theorem setRunState (h : StaysWithin w s t) (r : RunState) : StaysWithin w s (t.setRunState r) := { h with }

theorem emit (h : StaysWithin w s t) (d : Diagnostic) : StaysWithin w s (t.emit d) := { h with }

theorem setP (h : StaysWithin w s t) (p : Byte) (hp : ∀ f, f ∉ w.flags → getFlag p f = t.flag f) :
    StaysWithin w s (t.setP p) :=
  { h with flag := fun f hf => (hp f hf).trans (h.flag f hf) }

theorem setFlag (h : StaysWithin w s t) (f : Flag) (b : Bool) (hw : f ∈ w.flags := by decide) :
    StaysWithin w s (t.setFlag f b) :=
  h.setP _ fun g hg => by
    have hne : g ≠ f := fun e => hg (e ▸ hw)
    rw [getFlag_putFlag, if_neg hne]
    rfl

theorem writeByte (h : StaysWithin w s t) (a : Word) (v : Byte) (hw : w.stores = true := by decide) :
    StaysWithin w s (t.writeByte a v) :=
  { h with
    mem := fun hn => absurd (hw.symm.trans hn) Bool.true_eq_false.mp
    canonical := fun hs => State.wf_writeByte (h.canonical hs) a v }

/-! ## The flag computations and the stack -/

theorem setZN (h : StaysWithin w s t) (r : Byte) (hZ : .Z ∈ w.flags := by decide)
    (hN : .N ∈ w.flags := by decide) : StaysWithin w s (setZN r t) :=
  (h.setFlag .Z _ hZ).setFlag .N _ hN

theorem shiftFlags (h : StaysWithin w s t) (r : Shifted) (hC : .C ∈ w.flags := by decide)
    (hZ : .Z ∈ w.flags := by decide) (hN : .N ∈ w.flags := by decide) :
    StaysWithin w s (shiftFlags r t) :=
  (h.setFlag .C _ hC).setZN _ hZ hN

theorem push (h : StaysWithin w s t) (v : Byte) (hS : .S ∈ w.regs := by decide)
    (hw : w.stores = true := by decide) : StaysWithin w s (push v t) :=
  (h.writeByte _ v hw).setSp _ hS

theorem pullStatus (h : StaysWithin w s t) (hS : .S ∈ w.regs := by decide)
    (hw : ∀ f, f ∉ w.flags → f = .B ∨ f = .B2) : StaysWithin w s (pullStatus t) :=
  (h.setSp _ hS).setP _ fun f hf => by
    rw [getFlag_restoredStatus, if_pos (hw f hf)]
    rfl

end StaysWithin

/-! ## The shared handlers -/

/-- Where the answer of a handler entered with `s` is a next state, the handler has stayed within the footprint. -/
def AnswersWithin (w : Footprint) (s : State) (r : Result) : Prop := ∀ t, r = .next t → StaysWithin w s t

section
variable {w : Footprint} {s : State}

theorem next_answersWithin {u : State} (h : StaysWithin w s u) : AnswersWithin w s (.next u) := by
  intro t ht
  cases ht
  exact h

theorem complete_answersWithin {u : State} {m : Mode} (h : StaysWithin w s u) :
    AnswersWithin w s (complete m u) := next_answersWithin (h.setPc _)

theorem redirect_answersWithin {u : State} {a : Word} (h : StaysWithin w s u) :
    AnswersWithin w s (redirect a u) := next_answersWithin (h.setPc _)

theorem halt_answersWithin (reason : HaltReason) : AnswersWithin w s (.next (raiseHalt reason s)) :=
  next_answersWithin (.setRunState .refl _)

theorem refused_answersWithin (r : Refusal) : AnswersWithin w s (.refused r) := fun _ ht => nomatch ht

theorem withOperand_answersWithin {m : Mnemonic} {o : Operand} {k : Byte → State → State}
    (hk : ∀ v, StaysWithin w s (k v s)) : AnswersWithin w s (withOperand m o k s) := by
  obtain ⟨v, -, -, h⟩ | h := withOperand_cases m o k s
  · rw [h]; exact complete_answersWithin (hk v)
  · rw [h]; exact halt_answersWithin _

theorem withAddress_answersWithin {m : Mnemonic} {o : Operand} {k : Word → State → Result}
    (hk : ∀ ea, AnswersWithin w s (k ea s)) : AnswersWithin w s (withAddress m o k s) := by
  obtain ⟨ea, -, -, h⟩ | h := withAddress_cases m o k s
  · rw [h]; exact hk ea
  · rw [h]; exact halt_answersWithin _

theorem storeOperand_answersWithin (m : Mnemonic) (o : Operand) (v : Byte) (hw : w.stores = true) :
    AnswersWithin w s (storeOperand m o v s) :=
  withAddress_answersWithin fun _ => complete_answersWithin (StaysWithin.refl.writeByte _ _ hw)

theorem modifyMemory_answersWithin {m : Mnemonic} {o : Operand} {f : Byte → Byte}
    {flags : Byte → State → State} (hw : w.stores = true)
    (hf : ∀ v u, StaysWithin w s u → StaysWithin w s (flags v u)) :
    AnswersWithin w s (modifyMemory m o f flags s) :=
  withAddress_answersWithin fun _ => complete_answersWithin (hf _ _ (StaysWithin.refl.writeByte _ _ hw))

theorem shiftOperand_answersWithin (m : Mnemonic) (o : Operand) (f : Byte → Shifted) (s : State) :
    AnswersWithin (shiftFootprint o) s (shiftOperand m o f s) := by
  obtain ⟨rfl, h⟩ | ⟨ea, -, hea, h⟩ | h := shiftOperand_cases m o f s
  · rw [h]
    exact complete_answersWithin (w := ⟨[.A], [.C, .Z, .N], false⟩) ((StaysWithin.refl.setA _).shiftFlags _)
  · have hmem : shiftFootprint o = ⟨[], [.C, .Z, .N], true⟩ := by
      cases o with
      | noAddressing => exact nomatch hea
      | _ => rfl
    rw [h, hmem]
    exact complete_answersWithin ((StaysWithin.refl.writeByte _ _).shiftFlags _)
  · rw [h]; exact halt_answersWithin _

theorem branch_answersWithin (cond : Bool) (off : Byte) : AnswersWithin w s (branch cond off s) := by
  rw [branch_shape]
  exact next_answersWithin (.setPc .refl _)

end

/-! ## Every instruction and every step -/

/-- An instruction writes within its footprint and keeps the memory canonical. -/
theorem exec_answersWithin (i : Instr) (s : State) : AnswersWithin (footprint i) s (exec i s) := by
  cases i <;> simp only [exec, footprint]
  case lda | and | ora | eor => exact withOperand_answersWithin fun _ => (StaysWithin.refl.setA _).setZN _
  case ldx => exact withOperand_answersWithin fun _ => (StaysWithin.refl.setX _).setZN _
  case ldy => exact withOperand_answersWithin fun _ => (StaysWithin.refl.setY _).setZN _
  case adc | sbc =>
    simp only [execAdc, execSbc]
    split
    · exact refused_answersWithin _
    · exact withOperand_answersWithin fun _ =>
        (((StaysWithin.refl.setA _).setFlag .C _).setFlag .V _).setZN _
  case cmp | cpx | cpy =>
    exact withOperand_answersWithin fun _ =>
      ((StaysWithin.refl.setFlag .C _).setFlag .Z _).setFlag .N _
  case bit =>
    exact withOperand_answersWithin fun _ =>
      ((StaysWithin.refl.setFlag .Z _).setFlag .N _).setFlag .V _
  case inc | dec => exact modifyMemory_answersWithin rfl fun _ _ h => h.setZN _
  case sta | stx | sty => exact storeOperand_answersWithin _ _ _ rfl
  case asl | lsr | rol | ror => exact shiftOperand_answersWithin _ _ _ s
  case tax | tsx | inx | dex => exact complete_answersWithin ((StaysWithin.refl.setX _).setZN _)
  case tay | iny | dey => exact complete_answersWithin ((StaysWithin.refl.setY _).setZN _)
  case txa | tya => exact complete_answersWithin ((StaysWithin.refl.setA _).setZN _)
  case txs => exact complete_answersWithin (StaysWithin.refl.setSp _)
  case pha | php => exact complete_answersWithin (StaysWithin.refl.push _)
  case pla => exact complete_answersWithin (((StaysWithin.refl.setSp _).setA _).setZN _)
  case plp => exact complete_answersWithin (StaysWithin.refl.pullStatus (hw := by intro f; cases f <;> simp))
  case bpl | bmi | bvc | bvs | bcc | bcs | bne | beq => exact branch_answersWithin _ _
  case jmp => exact withAddress_answersWithin fun _ => redirect_answersWithin .refl
  case jsr => exact redirect_answersWithin ((StaysWithin.refl.push _).push _)
  case rts => exact redirect_answersWithin ((StaysWithin.refl.setSp _).setSp _)
  case rti =>
    exact redirect_answersWithin
      (((StaysWithin.refl.pullStatus (hw := by intro f; cases f <;> simp)).setSp _).setSp _)
  case clc | sec => exact complete_answersWithin (StaysWithin.refl.setFlag .C _)
  case cli | sei => exact complete_answersWithin (StaysWithin.refl.setFlag .I _)
  case clv => exact complete_answersWithin (StaysWithin.refl.setFlag .V _)
  case cld | sed => exact complete_answersWithin (StaysWithin.refl.setFlag .D _)
  case nop => exact complete_answersWithin .refl
  case brk => exact halt_answersWithin _

/-- A step writes nothing or what its instruction may write. -/
theorem step_staysWithin {s t : State} (h : step s = .next t) :
    StaysWithin ⟨[], [], false⟩ s t ∨ ∃ i, StaysWithin (footprint i) s t := by
  obtain ⟨-, ⟨_, -, rfl⟩ | ⟨i, _, -, ⟨-, rfl⟩ | ⟨-, hexec⟩⟩⟩ := step_cases h
  case inl => exact .inl (.setRunState (.setPc .refl _) _)
  case inr.inl =>
    obtain ⟨-, hu⟩ | ⟨-, hu⟩ := handleUnimplemented_cases i s
    · rw [hu]; exact .inl (.setRunState (.setPc .refl _) _)
    · rw [hu]; exact .inl (.setPc (.emit (.setPc .refl _) _) _)
  case inr.inr =>
    have hw := exec_answersWithin i (fetched s) t hexec
    exact .inr ⟨i, { hw with }⟩

/-- Settles O52: only stores touch the memory, and a store keeps the canonical form. -/
theorem everyStepKeepsMemoryCanonical : Obligations.EveryStepKeepsMemoryCanonical := by
  intro s t hs h
  obtain hw | ⟨_, hw⟩ := step_staysWithin h
  · exact hw.canonical hs
  · exact hw.canonical hs

end Sys2Proof.Machine
end

section
/-! PROOF. Which instructions write a flag, a register or memory, read off the columns of the footprint table. -/

namespace Sys2Proof.Machine

@[simp] theorem shiftFootprint_flags (o : Operand) : (shiftFootprint o).flags = [.C, .Z, .N] := by
  cases o <;> rfl

@[simp] theorem mem_shiftFootprint_regs {r : Reg} {o : Operand} :
    r ∈ (shiftFootprint o).regs ↔ r = .A ∧ o.mode = .noAddressing := by
  cases o <;> simp [shiftFootprint, Operand.mode]

@[simp] theorem shiftFootprint_stores {o : Operand} :
    (shiftFootprint o).stores = false ↔ o.mode = .noAddressing := by
  cases o <;> simp [shiftFootprint, Operand.mode]

/-- B and B2 have no writer (10_state.md R21). -/
theorem break_not_mem_footprint (i : Instr) : .B ∉ (footprint i).flags ∧ .B2 ∉ (footprint i).flags := by
  cases i <;> simp [footprint]

/-- An instruction keeps B and B2 (10_state.md R25). -/
theorem StaysWithin.breakBits {i : Instr} {s t : State} (h : StaysWithin (footprint i) s t) :
    t.flag .B = s.flag .B ∧ t.flag .B2 = s.flag .B2 :=
  ⟨h.flag .B (break_not_mem_footprint i).1, h.flag .B2 (break_not_mem_footprint i).2⟩

/-- Settles O46: the columns C and V of the footprint table list no other mnemonic. -/
theorem onlyTheListedInstructionsWriteCarryOrOverflow :
    Obligations.OnlyTheListedInstructionsWriteCarryOrOverflow := by
  intro i s t h
  have hw := exec_answersWithin i s t h
  refine ⟨fun hi => hw.flag .C (mt ?carry hi), fun hi => hw.flag .V (mt ?overflow hi)⟩
  all_goals cases i <;> simp [footprint, Instr.mnemonic]

/-- Settles O47: the columns N, Z, D and I list no other mnemonic, and B and B2 have no writer. -/
theorem onlyTheListedInstructionsWriteTheOtherFlags :
    Obligations.OnlyTheListedInstructionsWriteTheOtherFlags := by
  intro i s t h
  have hw := exec_answersWithin i s t h
  refine ⟨fun hi => ⟨hw.flag .N (mt ?negative hi), hw.flag .Z (mt ?zero hi)⟩,
    fun hi => hw.flag .D (mt ?decimal hi), fun hi => hw.flag .I (mt ?interrupt hi), hw.breakBits⟩
  all_goals cases i <;> simp [footprint, Instr.mnemonic]

/-- Settles O48: the columns of the registers and of memory list no other mnemonic; for the shifts and rotates the
mode decides between A and memory. -/
theorem onlyTheListedInstructionsWriteRegistersOrMemory :
    Obligations.OnlyTheListedInstructionsWriteRegistersOrMemory := by
  intro i s t h
  have hw := exec_answersWithin i s t h
  refine ⟨fun hi hacc => hw.a ?a, fun hi => hw.x (mt ?x hi), fun hi => hw.y (mt ?y hi),
    fun hi => hw.sp (mt ?sp hi), fun hi => hw.mem ?stores, fun hi hacc => hw.mem ?accumulator⟩
  case a => cases i <;> simp_all [footprint, Instr.mnemonic, Instr.mode, Instr.operand]
  case x | y | sp => cases i <;> simp [footprint, Instr.mnemonic]
  case stores => cases i <;> simp_all [footprint, Instr.mnemonic]
  case accumulator => cases i <;> simp_all [footprint, Instr.mnemonic, Instr.mode, Instr.operand]

/-! ## The break bits along a run -/

/-- The stack byte a handler addresses, as the statements write it (10_state.md R16). -/
theorem stackAddr_add_ofNat (sp : Byte) (k : Nat) :
    stackAddr (sp + BitVec.ofNat 8 k) = stackCell (sp.toNat + k) := by
  apply BitVec.eq_of_toNat_eq
  rw [stackAddr_toNat]
  simp [stackCell]
  omega

theorem stackAddr_eq_stackCell (sp : Byte) : stackAddr sp = stackCell sp.toNat := by
  simpa using stackAddr_add_ofNat sp 0

theorem pulled_eq_readByte (s : State) : pulled s = s.readByte (stackCell (s.sp.toNat + 1)) :=
  congrArg s.readByte (stackAddr_add_ofNat s.sp 1)

/-- No step changes bit 4 or 5 of P (10_state.md R25). -/
theorem step_keeps_breakBits {s t : State} (h : step s = .next t) :
    t.flag .B = s.flag .B ∧ t.flag .B2 = s.flag .B2 := by
  obtain hw | ⟨_, hw⟩ := step_staysWithin h
  · exact ⟨hw.flag .B List.not_mem_nil, hw.flag .B2 List.not_mem_nil⟩
  · exact hw.breakBits

/-- Break bits that are clear stay clear along every run. -/
theorem StepsTo.breakBitsClear {n : Nat} {s t : State} (h : StepsTo n s t) (hs : s.BreakBitsClear) :
    t.BreakBitsClear := by
  induction h with
  | refl => exact hs
  | tail _ hstep ih =>
    obtain ⟨hB, hB2⟩ := step_keeps_breakBits hstep
    obtain ⟨ihB, ihB2⟩ := ih hs
    exact ⟨hB.trans ihB, hB2.trans ihB2⟩

theorem hostReset_breakBitsClear (s : State) : s.hostReset.BreakBitsClear :=
  ⟨BitVec.getLsbD_zero, BitVec.getLsbD_zero⟩

theorem php_pushes_breakBits (s : State) : ∃ t, exec .php s = .next t ∧ t.p = s.p ∧
    (s.Canonical → t.readByte (stackCell s.sp.toNat) = s.p ||| 0x30) := by
  refine ⟨_, rfl, rfl, fun hs => ?_⟩
  rw [← stackAddr_eq_stackCell]
  exact push_readByte_self hs _

/-- Pulling P keeps its bits 4 and 5 (43_transfer_stack.md R124; 46_control_transfer.md R159). -/
theorem pullStatus_p_eq (s : State) : (pullStatus s).p =
    (s.readByte (stackCell (s.sp.toNat + 1)) &&& 0xCF) ||| (s.p &&& 0x30) := by
  rw [pullStatus_p, pulled_eq_readByte, restoredStatus]

/-- Settles O54: the break bits are clear after a reset and kept by every step, by induction on the steps. -/
theorem breakBitsStayClearFromReset : Obligations.BreakBitsStayClearFromReset :=
  ⟨hostReset_breakBitsClear, php_pushes_breakBits,
    fun s => ⟨_, rfl, pullStatus_p_eq s⟩, fun s => ⟨_, rfl, pullStatus_p_eq s⟩,
    fun _ _ => step_keeps_breakBits, fun _ s _ h => h.breakBitsClear (hostReset_breakBitsClear s),
    fun s f b _ => (State.setFlag_flag s f f b).trans (if_pos rfl)⟩

end Sys2Proof.Machine
end

section
/-! PROOF. What no instruction reads: two runs that differ in the diagnostics log and in flags nothing depends on
answer alike in everything else. -/

namespace Sys2Proof.Machine

/-! ## States alike but for hidden flags and the log -/

/-- `t` is `s` but for the hidden flags, and with `log` as its diagnostics log. -/
inductive SameBut (hidden : List Flag) (log : List Diagnostic) (s : State) : State → Prop where
  | intro (p : Byte) (h : ∀ f, f ∉ hidden → getFlag p f = s.flag f) :
    SameBut hidden log s { s with p := p, diagnostics := log }

/-- Two answers alike: next states that are, or the same refusal. -/
inductive Alike (hidden : List Flag) (log : List Diagnostic) : Result → Result → Prop where
  | next {s t : State} (h : SameBut hidden log s t) : Alike hidden log (.next s) (.next t)
  | refused (r : Refusal) : Alike hidden log (.refused r) (.refused r)

/-- The hidden flags are among those `i` depends on in nothing but what it writes to them: D counts only under
`binary` (44_arithmetic.md R126), and I and D are in the byte PHP pushes (43_transfer_stack.md R122). -/
structure Inert (hidden : List Flag) (i : Instr) (c : Config) : Prop where
  unread : ∀ f ∈ hidden, f ∈ [Flag.B, .B2, .I, .D]
  binary : .D ∈ hidden → c.decimalArith = .binary
  pushed : i.mnemonic = .PHP → ∀ f ∈ hidden, f ∈ [Flag.B, .B2]

section
variable {hidden : List Flag} {log : List Diagnostic} {s t : State}

namespace SameBut

theorem setFlag (h : SameBut hidden log s t) (f : Flag) (b : Bool) :
    SameBut hidden log (s.setFlag f b) (t.setFlag f b) := by
  obtain ⟨p, hp⟩ := h
  refine .intro (putFlag p f b) fun g hg => ?_
  rw [getFlag_putFlag, State.setFlag_flag, hp g hg]

theorem setZN (h : SameBut hidden log s t) (r : Byte) : SameBut hidden log (setZN r s) (setZN r t) :=
  (h.setFlag .Z _).setFlag .N _

theorem shiftFlags (h : SameBut hidden log s t) (r : Shifted) :
    SameBut hidden log (shiftFlags r s) (shiftFlags r t) :=
  (h.setFlag .C _).setZN _

/-- An update that moves neither P nor the log, and whose effect depends on neither. -/
theorem map (h : SameBut hidden log s t) (g : State → State)
    (hg : ∀ p l, g { s with p := p, diagnostics := l } = { g s with p := p, diagnostics := l })
    (hp : (g s).p = s.p) : SameBut hidden log (g s) (g t) := by
  obtain ⟨p, hflag⟩ := h
  rw [hg p log]
  refine .intro p fun f hf => ?_
  rw [hflag f hf, State.flag, State.flag, hp]

theorem setA (h : SameBut hidden log s t) (v : Byte) : SameBut hidden log (s.setA v) (t.setA v) :=
  h.map _ (fun _ _ => rfl) rfl

theorem setX (h : SameBut hidden log s t) (v : Byte) : SameBut hidden log (s.setX v) (t.setX v) :=
  h.map _ (fun _ _ => rfl) rfl

theorem setY (h : SameBut hidden log s t) (v : Byte) : SameBut hidden log (s.setY v) (t.setY v) :=
  h.map _ (fun _ _ => rfl) rfl

theorem setSp (h : SameBut hidden log s t) (v : Byte) : SameBut hidden log (s.setSp v) (t.setSp v) :=
  h.map _ (fun _ _ => rfl) rfl

theorem setPc (h : SameBut hidden log s t) (v : Word) : SameBut hidden log (s.setPc v) (t.setPc v) :=
  h.map _ (fun _ _ => rfl) rfl

theorem writeByte (h : SameBut hidden log s t) (a : Word) (v : Byte) :
    SameBut hidden log (s.writeByte a v) (t.writeByte a v) :=
  h.map _ (fun _ _ => rfl) rfl

theorem push (h : SameBut hidden log s t) (v : Byte) : SameBut hidden log (push v s) (push v t) :=
  h.map _ (fun _ _ => rfl) rfl

theorem dropPulled (h : SameBut hidden log s t) : SameBut hidden log (dropPulled s) (dropPulled t) :=
  h.map _ (fun _ _ => rfl) rfl

theorem skipOperands (h : SameBut hidden log s t) (m : Mode) :
    SameBut hidden log (skipOperands m s) (skipOperands m t) :=
  h.map _ (fun _ _ => rfl) rfl

theorem raiseHalt (h : SameBut hidden log s t) (r : HaltReason) :
    SameBut hidden log (raiseHalt r s) (raiseHalt r t) :=
  h.map _ (fun _ _ => rfl) rfl

theorem pullStatus (h : SameBut hidden log s t) : SameBut hidden log (pullStatus s) (pullStatus t) := by
  obtain ⟨p, hp⟩ := h
  refine .intro (restoredStatus (pulled s) p) fun f hf => ?_
  rw [getFlag_restoredStatus, hp f hf]
  exact (getFlag_restoredStatus (pulled s) s.p f).symm

theorem a (h : SameBut hidden log s t) : t.a = s.a := by
  obtain ⟨p, hp⟩ := h
  rfl

theorem pc (h : SameBut hidden log s t) : t.pc = s.pc := by
  obtain ⟨p, hp⟩ := h
  rfl

theorem config (h : SameBut hidden log s t) : t.config = s.config := by
  obtain ⟨p, hp⟩ := h
  rfl

theorem readByte (h : SameBut hidden log s t) (a : Word) : t.readByte a = s.readByte a := by
  obtain ⟨p, hp⟩ := h
  rfl

theorem flag (h : SameBut hidden log s t) {f : Flag} (hf : f ∉ hidden) : t.flag f = s.flag f := by
  obtain ⟨p, hp⟩ := h
  exact hp f hf

/-- The resolver reads registers and memory alone (41_addressing.md R92). -/
theorem resolve (h : SameBut hidden log s t) (o : Operand) : resolve o t = resolve o s := by
  obtain ⟨p, hp⟩ := h
  cases o <;> rfl

end SameBut

/-! ## The shared handlers -/

theorem complete_alike (h : SameBut hidden log s t) (m : Mode) :
    Alike hidden log (complete m s) (complete m t) := .next (h.skipOperands m)

theorem misuse_alike (h : SameBut hidden log s t) (m : Mode) :
    Alike hidden log (misuse m s) (misuse m t) := by
  unfold misuse opcodeAddr
  rw [h.pc]
  exact .next (h.raiseHalt _)

theorem withOperand_alike (h : SameBut hidden log s t) {m : Mnemonic} {o : Operand}
    {k : Byte → State → State} (hk : ∀ v, SameBut hidden log (k v s) (k v t)) :
    Alike hidden log (withOperand m o k s) (withOperand m o k t) := by
  have hread : readOperand o t = readOperand o s := by
    simp only [readOperand, h.resolve, h.readByte]
  unfold withOperand
  rw [hread]
  split
  · split
    · exact complete_alike (hk _) _
    · exact misuse_alike h _
  · exact misuse_alike h _

theorem withAddress_alike (h : SameBut hidden log s t) {m : Mnemonic} {o : Operand}
    {k k' : Word → State → Result} (hk : ∀ ea, Alike hidden log (k ea s) (k' ea t)) :
    Alike hidden log (withAddress m o k s) (withAddress m o k' t) := by
  have haddr : effectiveAddr o t = effectiveAddr o s := by
    simp only [effectiveAddr, h.resolve]
  unfold withAddress
  rw [haddr]
  split
  · split
    · exact hk _
    · exact misuse_alike h _
  · exact misuse_alike h _

theorem storeOperand_alike (h : SameBut hidden log s t) (m : Mnemonic) (o : Operand) (v : Byte) :
    Alike hidden log (storeOperand m o v s) (storeOperand m o v t) :=
  withAddress_alike h fun _ => complete_alike (h.writeByte _ _) _

theorem modifyMemory_alike (h : SameBut hidden log s t) {m : Mnemonic} {o : Operand} {f : Byte → Byte}
    {flags : Byte → State → State}
    (hf : ∀ v u u', SameBut hidden log u u' → SameBut hidden log (flags v u) (flags v u')) :
    Alike hidden log (modifyMemory m o f flags s) (modifyMemory m o f flags t) :=
  withAddress_alike h fun ea => by
    rw [h.readByte]
    exact complete_alike (hf _ _ _ (h.writeByte ea _)) _

theorem shiftOperand_alike (h : SameBut hidden log s t) (m : Mnemonic) (o : Operand) (f : Byte → Shifted) :
    Alike hidden log (shiftOperand m o f s) (shiftOperand m o f t) := by
  have hmem := modifyMemory_alike (m := m) (o := o) (f := fun v => (f v).result) h
    fun v _ _ hu => hu.shiftFlags (f v)
  cases o
  case noAddressing =>
    unfold shiftOperand
    rw [h.a]
    exact complete_alike ((h.setA _).shiftFlags _) _
  all_goals exact hmem

theorem branch_alike (h : SameBut hidden log s t) (cond : Bool) (off : Byte) :
    Alike hidden log (branch cond off s) (branch cond off t) := by
  obtain ⟨p, hp⟩ := h
  rw [branch_shape, branch_shape]
  exact .next (SameBut.setPc (.intro p hp) _)

theorem redirect_alike (h : SameBut hidden log s t) (a : Word) :
    Alike hidden log (redirect a s) (redirect a t) := .next (h.setPc a)

end

/-! ## Every instruction -/

theorem Inert.not_mem {hidden : List Flag} {i : Instr} {c : Config} (h : Inert hidden i c) {f : Flag}
    (hf : f ∉ [Flag.B, .B2, .I, .D]) : f ∉ hidden := mt (h.unread f) hf

/-- Where D is hidden the arithmetic is binary, so no refusal depends on it (44_arithmetic.md R126). -/
theorem decimalRefused_eq {hidden : List Flag} {log : List Diagnostic} {i : Instr} {s t : State}
    (h : SameBut hidden log s t) (hi : Inert hidden i s.config) : decimalRefused t = decimalRefused s := by
  unfold decimalRefused
  rw [h.config]
  by_cases hD : .D ∈ hidden
  · simp [hi.binary hD]
  · rw [h.flag hD]

/-- The pushed copy shows neither B nor B2 (43_transfer_stack.md R122). -/
theorem pushedStatus_eq {p q : Byte} (h : ∀ f, f ∉ [Flag.B, .B2] → getFlag p f = getFlag q f) :
    pushedStatus p = pushedStatus q := by
  apply status_ext
  intro f
  have hf := h f
  cases f <;> simp_all [getFlag, pushedStatus, Flag.bit]

/-- An instruction answers alike from states alike but for what it does not depend on (10_state.md R25 to R27,
R32). -/
theorem exec_alike {hidden : List Flag} {log : List Diagnostic} {s t : State} (i : Instr)
    (h : SameBut hidden log s t) (hi : Inert hidden i s.config) :
    Alike hidden log (exec i s) (exec i t) := by
  have hN := h.flag (hi.not_mem (f := .N) (by decide))
  have hV := h.flag (hi.not_mem (f := .V) (by decide))
  have hZ := h.flag (hi.not_mem (f := .Z) (by decide))
  have hC := h.flag (hi.not_mem (f := .C) (by decide))
  have hdecimal := decimalRefused_eq h hi
  obtain ⟨p, hp⟩ := h
  have h : SameBut hidden log s { s with p := p, diagnostics := log } := .intro p hp
  cases i <;> simp only [exec]
  case lda | and | ora | eor => exact withOperand_alike h fun _ => (h.setA _).setZN _
  case ldx => exact withOperand_alike h fun _ => (h.setX _).setZN _
  case ldy => exact withOperand_alike h fun _ => (h.setY _).setZN _
  case adc | sbc =>
    simp only [execAdc, execSbc, hdecimal]
    split
    · exact .refused _
    · refine withOperand_alike h fun _ => ?_
      rw [hC]
      exact (((h.setA _).setFlag .C _).setFlag .V _).setZN _
  case cmp | cpx | cpy =>
    exact withOperand_alike h fun _ => ((h.setFlag .C _).setFlag .Z _).setFlag .N _
  case bit => exact withOperand_alike h fun _ => ((h.setFlag .Z _).setFlag .N _).setFlag .V _
  case inc | dec => exact modifyMemory_alike h fun _ _ _ hu => hu.setZN _
  case sta | stx | sty => exact storeOperand_alike h _ _ _
  case asl | lsr => exact shiftOperand_alike h _ _ _
  case rol | ror =>
    simp only [execRol, execRor, hC]
    exact shiftOperand_alike h _ _ _
  case tax | tsx | inx | dex => exact complete_alike ((h.setX _).setZN _) _
  case tay | iny | dey => exact complete_alike ((h.setY _).setZN _) _
  case txa | tya => exact complete_alike ((h.setA _).setZN _) _
  case pla => exact complete_alike ((h.dropPulled.setA _).setZN _) _
  case txs => exact complete_alike (h.setSp _) _
  case pha => exact complete_alike (h.push _) _
  case nop => exact complete_alike h _
  case php =>
    have hpushed : pushedStatus p = pushedStatus s.p :=
      pushedStatus_eq fun f hf => hp f (mt (hi.pushed rfl f) hf)
    simp only [execPhp, hpushed]
    exact complete_alike (h.push _) _
  case plp => exact complete_alike h.pullStatus _
  case bpl | bmi | bvc | bvs | bcc | bcs | bne | beq =>
    simp only [execBpl, execBmi, execBvc, execBvs, execBcc, execBcs, execBne, execBeq, hN, hV, hC, hZ]
    exact branch_alike h _ _
  case jmp => exact withAddress_alike h fun ea => redirect_alike h ea
  case jsr => exact redirect_alike ((h.push _).push _) _
  case rts => exact redirect_alike h.dropPulled.dropPulled _
  case rti => exact redirect_alike h.pullStatus.dropPulled.dropPulled _
  case clc | sec | cli | sei | clv | cld | sed => exact complete_alike (h.setFlag _ _) _
  case brk => exact .next (h.raiseHalt _)

end Sys2Proof.Machine
end

section
/-! PROOF. The diagnostics log is written by the engine alone and read by no instruction, and the break bits, I and
D are inert. -/

namespace Sys2Proof.Machine

/-! ## The diagnostics log -/

/-- No instruction writes the log (10_state.md R32). -/
theorem exec_keepsLog {i : Instr} {s t : State} (h : exec i s = .next t) : t.diagnostics = s.diagnostics := by
  obtain hkeep | ⟨_, -, rfl⟩ := exec_keepsControlOrHalts i s t h
  · exact hkeep.diagnostics
  · rfl

/-- No instruction reads the log: with another log it answers the same next state with that log (10_state.md R32). -/
theorem exec_withLog {i : Instr} {s t : State} (h : exec i s = .next t) (log : List Diagnostic) :
    exec i { s with diagnostics := log } = .next { t with diagnostics := log } := by
  have hsame : SameBut [] log s { s with diagnostics := log } := .intro s.p fun _ _ => rfl
  have halike := exec_alike i hsame ⟨by simp, by simp, by simp⟩
  rw [h] at halike
  generalize exec i { s with diagnostics := log } = r at halike ⊢
  cases halike with
  | next hu =>
    obtain ⟨p, hp⟩ := hu
    obtain rfl : p = t.p := status_ext fun f => hp f List.not_mem_nil
    rfl

/-- A step logs nothing but an unimplemented mnemonic under `permissive_skip` (40_engine.md R83). -/
theorem step_log {s t : State} (h : step s = .next t) : t.diagnostics = s.diagnostics ∨
    ∃ m, m ∈ s.config.unimplemented ∧ s.config.unimplPolicy = .permissiveSkip ∧
      t.diagnostics = s.diagnostics ++ [.unimplementedMnemonic m s.pc] := by
  obtain ⟨-, ⟨_, -, rfl⟩ | ⟨i, _, -, ⟨hi, rfl⟩ | ⟨-, hexec⟩⟩⟩ := step_cases h
  case inl => exact .inl rfl
  case inr.inl =>
    obtain ⟨-, hu⟩ | ⟨hpolicy, hu⟩ := handleUnimplemented_cases i s
    · rw [hu]; exact .inl rfl
    · rw [hu]; exact .inr ⟨i.mnemonic, by simpa [isUnimplemented] using hi, hpolicy, rfl⟩
  case inr.inr =>
    have hlog := exec_keepsLog hexec
    exact .inl hlog

theorem State.load_diagnostics {bytes : List Byte} {s t : State} (h : s.load bytes = some t) :
    t.diagnostics = s.diagnostics := by
  unfold State.load at h
  split at h
  · cases h; rfl
  · exact nomatch h

@[simp] theorem State.poke_diagnostics (s : State) (w : Poke) : (s.poke w).diagnostics = s.diagnostics := by
  cases w with
  | reg r v => cases r <;> rfl
  | bit f b => rfl
  | cell a v => rfl

/-- Settles O49: the engine's skip alone appends, and an instruction answers alike whatever the log holds. -/
theorem onlyUnimplementedMnemonicsAreLogged : Obligations.OnlyUnimplementedMnemonicsAreLogged :=
  ⟨fun _ _ => step_log, fun _ _ _ h => ⟨exec_keepsLog h, exec_withLog h⟩, fun _ => rfl,
    fun _ _ _ => State.load_diagnostics, fun w s => s.poke_diagnostics w, fun _ _ _ => rfl⟩

/-! ## The inert flags -/

theorem sameBut_setFlag (s : State) (f : Flag) (b : Bool) :
    SameBut [f] s.diagnostics s (s.setFlag f b) := by
  refine .intro (putFlag s.p f b) fun g hg => ?_
  rw [getFlag_putFlag, if_neg (by simpa using hg)]
  rfl

/-- States alike but for one flag are the same once that flag is forgotten. -/
theorem SameBut.setFlag_eq {f : Flag} {log : List Diagnostic} {s t : State} (h : SameBut [f] log s t)
    (hlog : log = s.diagnostics) (b : Bool) : t.setFlag f b = s.setFlag f b := by
  obtain ⟨p, hp⟩ := h
  subst hlog
  have hput : putFlag p f b = putFlag s.p f b := status_ext fun g => by
    rw [getFlag_putFlag, getFlag_putFlag]
    split
    · rfl
    · next hne => exact hp g (by simpa using hne)
  exact congrArg (fun q => s.setP q) hput

theorem forgetFlag_exec_setFlag {i : Instr} {s : State} {f : Flag} (hi : Inert [f] i s.config) (b : Bool) :
    forgetFlag f (exec i (s.setFlag f b)) = forgetFlag f (exec i s) := by
  have halike := exec_alike i (sameBut_setFlag s f b) hi
  have hlog : ∀ u, exec i s = .next u → u.diagnostics = s.diagnostics := fun _ => exec_keepsLog
  generalize exec i s = r, exec i (s.setFlag f b) = r' at halike hlog ⊢
  cases halike with
  | next hu =>
    exact congrArg Host.Outcome.next (hu.setFlag_eq (hlog _ rfl).symm false)
  | refused => rfl

theorem inert_break {f : Flag} (hf : f = .B ∨ f = .B2) (i : Instr) (c : Config) : Inert [f] i c := by
  obtain rfl | rfl := hf <;> exact ⟨by simp, by simp, by simp⟩

theorem inert_I_or_D {f : Flag} {i : Instr} {c : Config}
    (hf : f = .I ∨ (f = .D ∧ c.decimalArith = .binary)) (hi : i.mnemonic ≠ .PHP) : Inert [f] i c := by
  obtain rfl | ⟨rfl, hbinary⟩ := hf
  · exact ⟨by simp, by simp, fun h => absurd h hi⟩
  · exact ⟨by simp, fun _ => hbinary, fun h => absurd h hi⟩

/-- PHP shows a flag in the byte it pushes and nowhere else (43_transfer_stack.md R122). -/
theorem php_setFlag (s : State) (f : Flag) (b : Bool) :
    ∃ t u, exec .php (s.setFlag f b) = .next t ∧ exec .php s = .next u ∧
      t.setFlag f false = { u.setFlag f false with mem := t.mem } ∧
      ∀ a, a ≠ stackCell s.sp.toNat → t.readByte a = u.readByte a := by
  refine ⟨_, _, rfl, rfl, ?_, fun a ha => ?_⟩
  · have hsame := ((sameBut_setFlag s f b).push (pushedStatus (putFlag s.p f b))).skipOperands .noAddressing
    exact hsame.setFlag_eq rfl false
  · rw [← stackAddr_eq_stackCell] at ha
    exact (push_readByte_other (s.setFlag f b) _ ha).trans (push_readByte_other s _ ha).symm

/-- Settles O51: no instruction reads B, B2 or I, nor D under `binary`, but for the byte PHP pushes. -/
theorem inertFlagsNeverChangeAResult : Obligations.InertFlagsNeverChangeAResult :=
  fun i s f b => ⟨fun hf => forgetFlag_exec_setFlag (inert_break hf i s.config) b,
    fun hf hi => forgetFlag_exec_setFlag (inert_I_or_D hf hi) b, fun _ => php_setFlag s f b⟩

end Sys2Proof.Machine
end

section
/-! PROOF. The flag-set operation, and the state after reset. -/

namespace Sys2Proof.Machine

theorem getLsbD_flagMask (f : Flag) (k : Nat) :
    ((1 : Byte) <<< f.bit).getLsbD k = decide (k = f.bit) := by
  have hf : f.bit < 8 := by cases f <;> decide
  change (1#8 <<< f.bit).getLsbD k = _
  rw [← BitVec.twoPow_eq, BitVec.getLsbD_twoPow]
  simp [hf, eq_comm]

theorem getLsbD_putFlag_other (p : Byte) {f : Flag} {k : Nat} (b : Bool) (h : k ≠ f.bit) :
    (putFlag p f b).getLsbD k = p.getLsbD k := by
  cases b
  · simp only [putFlag, Bool.false_eq_true, if_false, BitVec.getLsbD_and, BitVec.getLsbD_not,
      getLsbD_flagMask, h]
    simpa using p.lt_of_getLsbD
  · simp only [putFlag, if_true, BitVec.getLsbD_or, getLsbD_flagMask, h, decide_false, Bool.or_false]

/-- Settles O13: the mask of a flag has one bit. -/
theorem setFlagPerturbsNothingElse : Obligations.SetFlagPerturbsNothingElse :=
  fun s f b => ⟨rfl, (State.setFlag_flag s f f b).trans (if_pos rfl),
    fun _ hk => getLsbD_putFlag_other s.p b hk⟩

/-- Settles O53: the memory lists nothing and P is 0. -/
theorem resetMeetsTheInvariants : Obligations.ResetMeetsTheInvariants :=
  ⟨Memory.wf_nil, hostReset_breakBitsClear State.reset, rfl⟩

theorem word_eq_ofNat (h l : Byte) : word h l = BitVec.ofNat 16 (h.toNat * 256 + l.toNat) := by
  rw [← word_toNat, BitVec.ofNat_toNat, BitVec.setWidth_eq]

/-- Settles O59: the vector is read low byte first. -/
theorem resetClearsRegistersAndLoadsTheVector : Obligations.ResetClearsRegistersAndLoadsTheVector := by
  intro s
  rw [← word_eq_ofNat]
  rfl

end Sys2Proof.Machine
end

section
/-! PROOF. The word accessors and the copy of `load`: what is read after each. -/

namespace Sys2Proof.Machine

/-! ## Words -/

/-- The two cells of a word are distinct, at the top of memory too. -/
theorem word_ne_add_one (a : Word) : a ≠ a + 1 := by bv_omega

theorem Memory.readByte_writeU16_lo {m : Memory} (h : m.wf = true) (a v : Word) :
    (m.writeU16 a v).readByte a = lo v := by
  unfold Memory.writeU16
  rw [Memory.readByte_writeByte_other _ _ (word_ne_add_one a), Memory.readByte_writeByte_self h]

theorem Memory.readByte_writeU16_hi {m : Memory} (h : m.wf = true) (a v : Word) :
    (m.writeU16 a v).readByte (a + 1) = hi v :=
  Memory.readByte_writeByte_self (Memory.wf_writeByte h a (lo v)) (a + 1) (hi v)

theorem Memory.readU16_writeU16_self {m : Memory} (h : m.wf = true) (a v : Word) :
    (m.writeU16 a v).readU16 a = v := by
  unfold Memory.readU16
  rw [Memory.readByte_writeU16_hi h, Memory.readByte_writeU16_lo h, word_hi_lo]

/-- Settles O12: the two cells of a word are distinct at every address, so neither write undoes the other. -/
theorem wordWriteThenReadReturnsTheWord : Obligations.WordWriteThenReadReturnsTheWord :=
  fun m a v => ⟨fun h => Memory.readU16_writeU16_self h a v,
    fun _ h0 h1 => Memory.readByte_writeU16_other m h0 h1⟩

/-! ## The copy of a sequence of bytes -/

/-- A copy of `n` bytes to `a` leaves alone every byte that lies `n` or more above `a`, counted with wrap. -/
theorem Memory.readByte_writeBytes_other (m : Memory) {a b : Word} {bs : List Byte}
    (h : bs.length ≤ (b - a).toNat) : (m.writeBytes a bs).readByte b = m.readByte b := by
  induction bs generalizing m a with
  | nil => rfl
  | cons v rest ih =>
    rw [List.length_cons] at h
    have hne : b ≠ a := by bv_omega
    have hrest : rest.length ≤ (b - (a + 1)).toNat := by bv_omega
    exact (ih (m.writeByte a v) hrest).trans (Memory.readByte_writeByte_other m v hne)

/-- A copy that does not run into its own start puts byte `k` at `a + k`. -/
theorem Memory.readByte_writeBytes_getElem {m : Memory} (hm : m.wf = true) {a : Word} {bs : List Byte}
    (hlen : bs.length ≤ 65536) {k : Nat} (hk : k < bs.length) :
    (m.writeBytes a bs).readByte (a + BitVec.ofNat 16 k) = bs[k] := by
  induction bs generalizing m a k with
  | nil => exact absurd hk (Nat.not_lt_zero k)
  | cons v rest ih =>
    rw [List.length_cons] at hlen hk
    have hm' := Memory.wf_writeByte hm a v
    cases k with
    | zero =>
      have hfar : rest.length ≤ (a - (a + 1)).toNat := by bv_omega
      rw [BitVec.add_zero]
      exact (Memory.readByte_writeBytes_other _ hfar).trans (Memory.readByte_writeByte_self hm a v)
    | succ k =>
      have hshift : a + BitVec.ofNat 16 (k + 1) = a + 1 + BitVec.ofNat 16 k := by bv_omega
      rw [hshift]
      exact ih hm' (by omega) (by omega)

/-! ## `load` -/

/-- `load` answers exactly up to 0x8000 bytes: with the copy, then the vector (20_memory.md R52). -/
theorem load_of_le {bytes : List Byte} (s : State) (h : bytes.length ≤ 0x8000) :
    s.load bytes = some (s.setMem ((s.mem.writeBytes 0x8000 bytes).writeU16 0xFFFC 0x8000)) := if_pos h

theorem load_of_lt {bytes : List Byte} (s : State) (h : 0x8000 < bytes.length) : s.load bytes = none :=
  if_neg (Nat.not_le_of_lt h)

/-- Settles O57: the copy does not wrap within 0x8000 bytes, and the vector is written after it. -/
theorem loadCopiesTheProgramAndSetsTheVector : Obligations.LoadCopiesTheProgramAndSetsTheVector := by
  refine fun bytes s => ⟨load_of_lt s, fun hlen => ⟨_, load_of_le s hlen, rfl, fun hs => ?_, ?_⟩⟩
  · have hcopy := Memory.wf_writeBytes hs 0x8000 bytes
    refine ⟨Memory.wf_writeU16 hcopy _ _, Memory.readByte_writeU16_lo hcopy _ _,
      Memory.readByte_writeU16_hi hcopy _ _, fun k hk hlo hhi => ?_⟩
    have haddr : BitVec.ofNat 16 (0x8000 + k) = (0x8000 : Word) + BitVec.ofNat 16 k := by bv_omega
    have hne0 : (0x8000 : Word) + BitVec.ofNat 16 k ≠ 0xFFFC := by bv_omega
    have hne1 : (0x8000 : Word) + BitVec.ofNat 16 k ≠ 0xFFFC + 1 := by bv_omega
    rw [haddr]
    exact (Memory.readByte_writeU16_other _ hne0 hne1).trans
      (Memory.readByte_writeBytes_getElem hs (by omega) hk)
  · intro a hout hlo hhi
    have hfar : bytes.length ≤ (a - 0x8000).toNat := by bv_omega
    exact (Memory.readByte_writeU16_other _ hlo hhi).trans (Memory.readByte_writeBytes_other s.mem hfar)

end Sys2Proof.Machine
end

section
/-! PROOF. The decoder and the encoder: bytes decode to an instruction exactly when they are its encoding with the
bytes left over behind it; and the bytes that decode to nothing. -/

namespace Sys2Proof

open Sys2Proof.Machine

/-! ## Operands and their bytes -/

theorem Mode.operandBytes_cases (m : Mode) :
    m.operandBytes = 0 ∨ m.operandBytes = 1 ∨ m.operandBytes = 2 := by
  cases m <;> simp [Mode.operandBytes]

@[simp] theorem Operand.mode_assemble (mode : Mode) (b1 b2 : Byte) :
    (Operand.assemble mode b1 b2).mode = mode := by
  cases mode <;> rfl

/-- An operand assembled from as many bytes as its mode asks for has just these bytes. -/
theorem Operand.bytes_assemble {mode : Mode} {ops : List Byte} (h : ops.length = mode.operandBytes) :
    (Operand.assemble mode (ops.getD 0 0) (ops.getD 1 0)).bytes = ops := by
  cases mode
  case noAddressing =>
    obtain rfl := List.length_eq_zero_iff.mp h
    rfl
  case absolute | absoluteX | absoluteY | indirect =>
    obtain ⟨b1, b2, rfl⟩ := List.length_eq_two.mp h
    simp [Operand.assemble, Operand.bytes]
  all_goals
    obtain ⟨b, rfl⟩ := List.length_eq_one_iff.mp h
    rfl

/-- An operand whose bytes come first is the one assembled from the first two bytes. -/
theorem Operand.eq_assemble_of_bytes {o : Operand} {b1 b2 : Byte} {rest : List Byte}
    (h : o.bytes ++ rest = [b1, b2]) : o = Operand.assemble o.mode b1 b2 := by
  cases o
  case noAddressing => rfl
  case absolute w | absoluteX w | absoluteY w | indirect w =>
    obtain ⟨rfl, rfl, -⟩ : lo w = b1 ∧ hi w = b2 ∧ rest = [] := by simpa [Operand.bytes] using h
    simp [Operand.assemble, Operand.mode]
  all_goals
    obtain rfl := (List.cons.inj h).1
    rfl

/-! ## Instructions and their operands -/

@[simp] theorem Instr.mnemonic_assemble (m : Mnemonic) (mode : Mode) (b1 b2 : Byte) :
    (Instr.assemble m mode b1 b2).mnemonic = m := by
  cases m <;> rfl

/-- In a mode its rule lists, an instruction is assembled with the operand of that mode. -/
theorem Instr.operand_assemble {m : Mnemonic} {mode : Mode} (h : mode ∈ m.modes) (b1 b2 : Byte) :
    (Instr.assemble m mode b1 b2).operand = Operand.assemble mode b1 b2 := by
  cases m
  case TAX | TAY | TSX | TXA | TXS | TYA | PHA | PHP | PLA | PLP | INX | INY | DEX | DEY | RTS | RTI
      | CLC | SEC | CLI | SEI | CLV | CLD | SED | NOP | BRK | BPL | BMI | BVC | BVS | BCC | BCS | BNE
      | BEQ | JSR =>
    obtain rfl := List.mem_singleton.mp h
    rfl
  all_goals rfl

/-- An instruction is assembled from bytes that its operand is assembled from. -/
theorem Instr.assemble_of_operand {i : Instr} {b1 b2 : Byte}
    (h : Operand.assemble i.mode b1 b2 = i.operand) : Instr.assemble i.mnemonic i.mode b1 b2 = i := by
  cases i
  case bpl | bmi | bvc | bvs | bcc | bcs | bne | beq =>
    obtain rfl := Operand.relative.inj h
    rfl
  case jsr =>
    obtain rfl := Operand.absolute.inj h
    rfl
  case tax | tay | tsx | txa | txs | tya | pha | php | pla | plp | inx | iny | dex | dey | rts | rti
      | clc | sec | cli | sei | clv | cld | sed | nop | brk => rfl
  all_goals exact congrArg _ h

/-! ## What the decoder answers -/

theorem decode_cons_of_absent {op : Byte} (h : lookupOpcode op = none) (bs : List Byte) :
    decode (op :: bs) = .reject (.absentOpcode op) := by
  simp only [decode, h]

/-- With a row of the table, the decoder takes off as many operand bytes as the mode has, if they are there
(30_encoding.md R61, R62). -/
theorem decode_cons_of_lookupOpcode {op : Byte} {d : Descriptor} (h : lookupOpcode op = some d)
    (bs : List Byte) :
    decode (op :: bs) =
      if d.mode.operandBytes ≤ bs.length then
        .ok (Instr.assemble d.mnemonic d.mode ((bs.take d.mode.operandBytes).getD 0 0)
          ((bs.take d.mode.operandBytes).getD 1 0)) (bs.drop d.mode.operandBytes)
      else .reject (.truncated op) := by
  obtain ⟨-, hlen, -⟩ := opcodeOf_of_lookupOpcode h
  simp only [decode, h, hlen, Mode.length]
  obtain hn | hn | hn := d.mode.operandBytes_cases <;> rw [hn]
  case inl => rfl
  case inr.inl =>
    match bs with
    | [] => rfl
    | b1 :: rest => simp
  case inr.inr =>
    match bs with
    | [] | [b1] => rfl
    | b1 :: b2 :: rest => simp

/-- The bytes of an instruction that has an opcode decode to it. -/
theorem decode_of_opcodeOf {i : Instr} {op : Byte} (h : opcodeOf i.mnemonic i.mode = some op)
    (rest : List Byte) : decode (op :: (i.operand.bytes ++ rest)) = .ok i rest := by
  obtain ⟨d, hd, hmnemonic, hmode, -⟩ := lookupOpcode_of_opcodeOf h
  have hlen : i.operand.bytes.length = i.mode.operandBytes := i.operand.bytes_length
  rw [decode_cons_of_lookupOpcode hd, hmnemonic, hmode, if_pos (by simp [hlen]),
    List.take_left' hlen, List.drop_left' hlen, Instr.assemble_of_operand i.operand.assemble_bytes]

/-- What decodes has the opcode and the operand bytes it was decoded from, in a mode its rule lists. -/
theorem opcodeOf_of_decode {op : Byte} {bs : List Byte} {i : Instr} {rest : List Byte}
    (h : decode (op :: bs) = .ok i rest) :
    opcodeOf i.mnemonic i.mode = some op ∧ i.wellFormed = true ∧ i.operand.bytes ++ rest = bs := by
  cases hd : lookupOpcode op with
  | none => rw [decode_cons_of_absent hd] at h; exact nomatch h
  | some d =>
    rw [decode_cons_of_lookupOpcode hd] at h
    split at h
    case isFalse => exact nomatch h
    case isTrue hle =>
      obtain ⟨rfl, rfl⟩ := DecodeResult.ok.inj h
      obtain ⟨hop, -, hmodes⟩ := opcodeOf_of_lookupOpcode hd
      have hoperand := Instr.operand_assemble (List.contains_iff_mem.mp hmodes)
      simp only [Instr.wellFormed, Instr.mode, Instr.mnemonic_assemble, hoperand, Operand.mode_assemble]
      refine ⟨hop, hmodes, ?_⟩
      rw [Operand.bytes_assemble (List.length_take_of_le hle), List.take_append_drop]

theorem encode_of_opcodeOf {i : Instr} {op : Byte} (h : opcodeOf i.mnemonic i.mode = some op) :
    encode i = op :: i.operand.bytes := by
  simp only [encode, h]

/-- Settles O1: a mode the rule lists has an opcode, and the table has that opcode. -/
theorem decodeOfEncodeIsTheInstruction : Obligations.DecodeOfEncodeIsTheInstruction := by
  intro i rest hwf
  obtain ⟨op, hop⟩ := opcodeOf_isSome i.mnemonic i.mode hwf
  rw [encode_of_opcodeOf hop]
  exact decode_of_opcodeOf hop rest

/-- Settles O2: the decoder takes off the opcode and the operand bytes, and the encoder puts them back. -/
theorem encodeOfDecodeIsTheBytes : Obligations.EncodeOfDecodeIsTheBytes := by
  intro bytes i rest h
  cases bytes with
  | nil => exact nomatch h
  | cons op bs =>
    obtain ⟨hop, hwf, hbytes⟩ := opcodeOf_of_decode h
    rw [encode_of_opcodeOf hop]
    exact ⟨hwf, congrArg (op :: ·) hbytes⟩

/-- Settles O4: the words are encodings, and encodings decode. -/
theorem wordsOfTheSpecsExamplesDecode : Obligations.WordsOfTheSpecsExamplesDecode := by
  intro rest
  have hdecode (i : Instr) (hwf : i.wellFormed = true) := decodeOfEncodeIsTheInstruction i rest hwf
  exact ⟨⟨hdecode (.lda (.immediate 0x00)) rfl, hdecode (.lda (.immediate 0x80)) rfl,
    hdecode (.lda (.immediate 0x05)) rfl, hdecode .tax rfl, hdecode .brk rfl,
    hdecode (.sta (.zeroPage 0x10)) rfl⟩, rfl, rfl, rfl, rfl, rfl, rfl⟩

/-- A byte is the opcode of one mnemonic in one mode (30_encoding.md R61). -/
theorem opcodeOf_inj {m n : Mnemonic} {mode mode' : Mode} {op : Byte} (hm : opcodeOf m mode = some op)
    (hn : opcodeOf n mode' = some op) : m = n ∧ mode = mode' := by
  obtain ⟨d, hd, rfl, rfl, -⟩ := lookupOpcode_of_opcodeOf hm
  obtain ⟨e, he, rfl, rfl, -⟩ := lookupOpcode_of_opcodeOf hn
  obtain rfl := Option.some.inj (hd.symm.trans he)
  exact ⟨rfl, rfl⟩

/-- Settles O5: a byte is the opcode of one mnemonic in one mode, and the mode fixes the number of operand bytes. -/
theorem opcodeByteAloneFixesModeAndLength : Obligations.OpcodeByteAloneFixesModeAndLength := by
  intro op bs cs i j r q hi hj
  obtain ⟨hopi, -, rfl⟩ := opcodeOf_of_decode hi
  obtain ⟨hopj, -, -⟩ := opcodeOf_of_decode hj
  obtain ⟨hmnemonic, hmode⟩ := opcodeOf_inj hopi hopj
  refine ⟨hmnemonic, hmode, congrArg Mode.length hmode, ?_⟩
  rw [← encode_length hopi, encode_of_opcodeOf hopi, ← List.cons_append, List.length_append]

/-- Settles O6: the bytes after the opcode are the operand's, then the rest, and joining the two bytes of a word
undoes splitting it. -/
theorem operandsAreAssembledFromTheFollowingBytes :
    Obligations.OperandsAreAssembledFromTheFollowingBytes := by
  intro s i rest h b1 b2 w
  obtain ⟨-, -, hbytes⟩ := opcodeOf_of_decode h
  have hoperand : ∀ mode, i.mode = mode → i.operand = Operand.assemble mode b1 b2 := by
    rintro _ rfl
    exact Operand.eq_assemble_of_bytes hbytes
  have hw : word b2 b1 = w := word_eq_ofNat b2 b1
  rw [← hw]
  exact ⟨hoperand _, hoperand _, hoperand _, hoperand _, hoperand _, hoperand _, hoperand _, hoperand _,
    hoperand _, hoperand _, hoperand _, hoperand _⟩

/-! ## The absent bytes -/

/-- The table and the list of R65 part the 256 byte values between them. -/
theorem lookupOpcode_eq_none_iff (op : Byte) : lookupOpcode op = none ↔ op ∈ absentBytes := by
  revert op
  decide +kernel

theorem decode_cons_eq_absentOpcode_iff (op : Byte) (bs : List Byte) :
    decode (op :: bs) = .reject (.absentOpcode op) ↔ lookupOpcode op = none := by
  refine ⟨fun h => ?_, fun h => decode_cons_of_absent h bs⟩
  cases hd : lookupOpcode op with
  | none => rfl
  | some d =>
    rw [decode_cons_of_lookupOpcode hd] at h
    split at h <;> exact nomatch h

/-- A rejected fetch ends the step in a decode failure (40_engine.md R82). -/
theorem step_of_decode_reject {s : State} {r : DecodeReject} (hrun : s.runState = .running)
    (h : decode (fetchBytes s) = .reject r) : step s = .next (decodeFailure s) := by
  simp only [step, prepare, hrun, h]

/-- Settles O3: the listed bytes are those with no row in the table. -/
theorem absentBytesAreRejectedAndHalt : Obligations.AbsentBytesAreRejectedAndHalt := by
  refine ⟨fun op rest => (decode_cons_eq_absentOpcode_iff op rest).trans (lookupOpcode_eq_none_iff op),
    fun s hrun habsent => ⟨decodeFailure s, ?_, rfl⟩⟩
  exact step_of_decode_reject hrun (decode_cons_of_absent ((lookupOpcode_eq_none_iff _).mpr habsent) _)

end Sys2Proof
end

section
/-! PROOF. The ways a handler ends, said once: it skips its operand, redirects, halts by BRK, is misused or is
refused. -/

namespace Sys2Proof.Machine

/-- The ways the handler of `i` ends when it is entered with `s` (40_engine.md R78, R79, R84; 44_arithmetic.md R126;
47_flags_misc.md R168). -/
inductive HandlerEnds (i : Instr) (s : State) : Result → Prop
  | skips {u : State} (hwf : i.wellFormed = true) (hcontrol : SameControl s u) (hpc : u.pc = s.pc)
      (htarget : redirectTarget i s = none) : HandlerEnds i s (complete i.mode u)
  | redirects {u : State} {target : Word} (hwf : i.wellFormed = true) (hcontrol : SameControl s u)
      (htarget : redirectTarget i s = some target) : HandlerEnds i s (redirect target u)
  | halts (hbrk : i = .brk) : HandlerEnds i s (.next (raiseHalt (.brk (opcodeAddr s)) s))
  | misused (hwf : i.wellFormed = false) : HandlerEnds i s (misuse i.mode s)
  | refused (hi : i.mnemonic = .ADC ∨ i.mnemonic = .SBC) (hd : decimalRefused s = true) :
      HandlerEnds i s (.refused (.decimalMode (opcodeAddr s)))

/-! ## The targets of the redirects -/

/-- The branch target as a signed sum (46_control_transfer.md R147). -/
theorem relativeTarget_eq_ofInt (off : Byte) (s : State) :
    relativeTarget off s = BitVec.ofInt 16 (s.pc.toNat + 1 + off.toInt) := by
  have hpc : s.pc = BitVec.ofInt 16 s.pc.toNat := by simp
  rw [BitVec.ofInt_add, BitVec.ofInt_add, ← hpc]
  rfl

/-- The return address pulled `k` stack bytes above S (46_control_transfer.md R158, R159). -/
theorem pulledWord_eq_ofNat {s t : State} (k : Nat) (hmem : t.mem = s.mem)
    (hsp : t.sp = s.sp + BitVec.ofNat 8 k) :
    pulledWord t = BitVec.ofNat 16 ((s.readByte (stackCell (s.sp.toNat + (k + 2)))).toNat * 256 +
      (s.readByte (stackCell (s.sp.toNat + (k + 1)))).toNat) := by
  have hlow : t.sp + 1 = s.sp + BitVec.ofNat 8 (k + 1) := by bv_omega
  have hhigh : t.sp + 1 + 1 = s.sp + BitVec.ofNat 8 (k + 2) := by bv_omega
  rw [← stackAddr_add_ofNat, ← stackAddr_add_ofNat, ← hlow, ← hhigh, ← word_eq_ofNat,
    ← State.readByte_congr hmem, ← State.readByte_congr hmem]
  rfl

/-! ## The shared handlers -/

section
variable {i : Instr} {m : Mnemonic} {o : Operand} {s : State}

/-- A mode that is not listed is not the mode of an operand whose mode is. -/
theorem mode_ne_of_not_mem (hlisted : m.modes.contains o.mode = true) {mode : Mode} (h : mode ∉ m.modes) :
    o.mode ≠ mode := by
  rintro rfl
  exact h (List.contains_iff_mem.mp hlisted)

theorem withOperand_ends {k : Byte → State → State} (hm : i.mnemonic = m) (ho : i.operand = o)
    (hcontrol : ∀ v, SameControl s (k v s)) (hpc : ∀ v, (k v s).pc = s.pc)
    (htarget : redirectTarget i s = none)
    (hmodes : .noAddressing ∉ m.modes ∧ .relative ∉ m.modes := by
      simp [Instr.mnemonic, Mnemonic.modes]) :
    HandlerEnds i s (withOperand m o k s) := by
  subst hm ho
  cases hwf : i.wellFormed with
  | true =>
    obtain ⟨v, hv⟩ := readOperand_isSome s (mode_ne_of_not_mem hwf hmodes.1)
      (mode_ne_of_not_mem hwf hmodes.2)
    rw [withOperand_eq hwf hv]
    exact .skips hwf (hcontrol v) (hpc v) htarget
  | false =>
    have hmisuse : withOperand i.mnemonic i.operand k s = misuse i.mode s :=
      if_neg (ne_true_of_eq_false hwf)
    rw [hmisuse]
    exact .misused hwf

/-- The modes `m` lists stand for an address; NoAddressing may be listed where `o` has another mode. -/
def Addressed (m : Mnemonic) (o : Operand) : Prop :=
  (.noAddressing ∈ m.modes → o.mode ≠ .noAddressing) ∧ .relative ∉ m.modes ∧ .immediate ∉ m.modes

theorem Addressed.effectiveAddr_isSome (h : Addressed m o) (s : State)
    (hlisted : m.modes.contains o.mode = true) : ∃ ea, effectiveAddr o s = some ea := by
  obtain ⟨hnone, hrelative, himmediate⟩ := h
  have hmode : o.mode ≠ .noAddressing := fun heq =>
    hnone (heq ▸ List.contains_iff_mem.mp hlisted) heq
  exact Machine.effectiveAddr_isSome s hmode (mode_ne_of_not_mem hlisted hrelative)
    (mode_ne_of_not_mem hlisted himmediate)

/-- A handler on an address ends as its continuation does. -/
theorem withAddress_ends {k : Word → State → Result} (hm : i.mnemonic = m) (ho : i.operand = o)
    (hk : ∀ ea, i.wellFormed = true → effectiveAddr o s = some ea → HandlerEnds i s (k ea s))
    (haddr : Addressed m o := by simp [Addressed, Instr.mnemonic, Mnemonic.modes]) :
    HandlerEnds i s (withAddress m o k s) := by
  subst hm ho
  cases hwf : i.wellFormed with
  | true =>
    obtain ⟨ea, hea⟩ := haddr.effectiveAddr_isSome s hwf
    rw [withAddress_eq hwf hea]
    exact hk ea hwf hea
  | false =>
    have hmisuse : withAddress i.mnemonic i.operand k s = misuse i.mode s :=
      if_neg (ne_true_of_eq_false hwf)
    rw [hmisuse]
    exact .misused hwf

theorem storeOperand_ends {v : Byte} (hm : i.mnemonic = m) (ho : i.operand = o)
    (htarget : redirectTarget i s = none)
    (haddr : Addressed m o := by simp [Addressed, Instr.mnemonic, Mnemonic.modes]) :
    HandlerEnds i s (storeOperand m o v s) := by
  refine withAddress_ends hm ho (fun ea hwf _ => ?_) haddr
  subst ho
  exact .skips (s := s) hwf ⟨rfl, rfl, rfl⟩ rfl htarget

theorem modifyMemory_ends {f : Byte → Byte} {flags : Byte → State → State} (hm : i.mnemonic = m)
    (ho : i.operand = o) (hcontrol : ∀ v u, SameControl u (flags v u))
    (hpc : ∀ v u, (flags v u).pc = u.pc) (htarget : redirectTarget i s = none)
    (haddr : Addressed m o := by simp [Addressed, Instr.mnemonic, Mnemonic.modes]) :
    HandlerEnds i s (modifyMemory m o f flags s) := by
  refine withAddress_ends hm ho (fun ea hwf _ => ?_) haddr
  have h := hcontrol (s.readByte ea) (s.writeByte ea (f (s.readByte ea)))
  subst ho
  exact .skips (s := s) hwf ⟨h.runState, h.diagnostics, h.config⟩ (hpc _ _) htarget

/-- A shift or rotate works on A where its mode is NoAddressing, and else on memory (30_encoding.md R69). -/
theorem shiftOperand_ends {f : Byte → Shifted} (hm : i.mnemonic = m) (ho : i.operand = o)
    (htarget : redirectTarget i s = none)
    (hmodes : .noAddressing ∈ m.modes ∧ .relative ∉ m.modes ∧ .immediate ∉ m.modes := by
      simp [Instr.mnemonic, Mnemonic.modes]) :
    HandlerEnds i s (shiftOperand m o f s) := by
  obtain ⟨hlisted, hother⟩ := hmodes
  have hmemory (hnone : o.mode ≠ .noAddressing) :
      HandlerEnds i s (modifyMemory m o (fun v => (f v).result) (fun v => shiftFlags (f v)) s) :=
    modifyMemory_ends hm ho (fun _ _ => ⟨rfl, rfl, rfl⟩) (fun _ _ => rfl) htarget ⟨fun _ => hnone, hother⟩
  cases o with
  | noAddressing =>
    have hmode : i.mode = .noAddressing := congrArg Operand.mode ho
    have hwf : i.wellFormed = true := by
      rw [Instr.wellFormed, hm, hmode]
      exact List.contains_iff_mem.mpr hlisted
    have hend : HandlerEnds i s (complete i.mode (shiftFlags (f s.a) (s.setA (f s.a).result))) :=
      .skips (s := s) hwf ⟨rfl, rfl, rfl⟩ rfl htarget
    rwa [hmode] at hend
  | _ => exact hmemory (by simp [Operand.mode])

theorem branch_ends {cond : Bool} {off : Byte} (hwf : i.wellFormed = true) (hmode : i.mode = .relative)
    (htarget : redirectTarget i s = if cond then some (relativeTarget off s) else none) :
    HandlerEnds i s (branch cond off s) := by
  cases cond with
  | true => exact .redirects hwf ⟨rfl, rfl, rfl⟩ htarget
  | false =>
    have hend : HandlerEnds i s (complete i.mode s) := .skips hwf ⟨rfl, rfl, rfl⟩ rfl htarget
    rwa [hmode] at hend

end

/-! ## Every instruction -/

/-- The ways every handler ends. -/
theorem exec_ends (i : Instr) (s : State) : HandlerEnds i s (exec i s) := by
  cases i <;> simp only [exec]
  case lda | ldx | ldy | cmp | cpx | cpy | and | ora | eor | bit =>
    exact withOperand_ends rfl rfl (fun _ => ⟨rfl, rfl, rfl⟩) (fun _ => rfl) rfl
  case adc o | sbc o =>
    simp only [execAdc, execSbc]
    split
    · next hd => exact .refused (by simp [Instr.mnemonic]) hd
    · exact withOperand_ends rfl rfl (fun _ => ⟨rfl, rfl, rfl⟩) (fun _ => rfl) rfl
  case sta | stx | sty => exact storeOperand_ends rfl rfl rfl
  case inc | dec => exact modifyMemory_ends rfl rfl (fun _ _ => ⟨rfl, rfl, rfl⟩) (fun _ _ => rfl) rfl
  case asl | lsr | rol | ror => exact shiftOperand_ends rfl rfl rfl
  case bpl | bmi | bvc | bvs | bcc | bcs | bne | beq =>
    refine branch_ends rfl rfl ?_
    simp only [redirectTarget, relativeTarget_eq_ofInt, Bool.not_eq_true', Bool.eq_false_iff, ne_eq, ite_not]
  case jmp =>
    refine withAddress_ends rfl rfl fun _ hwf hea => ?_
    exact .redirects hwf ⟨rfl, rfl, rfl⟩ hea
  case jsr => exact .redirects rfl ⟨rfl, rfl, rfl⟩ rfl
  case rts =>
    have hword := pulledWord_eq_ofNat (s := s) 0 rfl (BitVec.add_zero s.sp).symm
    exact .redirects rfl ⟨rfl, rfl, rfl⟩ (congrArg (fun w => some (w + 1)) hword.symm)
  case rti =>
    have hword := pulledWord_eq_ofNat (s := s) (t := pullStatus s) 1 rfl rfl
    exact .redirects rfl ⟨rfl, rfl, rfl⟩ (congrArg some hword.symm)
  case tax | tay | tsx | txa | txs | tya | pha | php | pla | plp | inx | iny | dex | dey
      | clc | sec | cli | sei | clv | cld | sed | nop =>
    exact .skips rfl ⟨rfl, rfl, rfl⟩ rfl rfl
  case brk => exact .halts rfl

/-- No handler faults. -/
theorem exec_ne_fault (i : Instr) (s : State) (f : Fault) : exec i s ≠ .fault f := by
  intro h
  have hends := exec_ends i s
  rw [h] at hends
  exact nomatch hends

/-- A handler keeps the run state but for BRK and the misuse of an ill-formed instruction. -/
theorem exec_runState {i : Instr} {s t : State} (h : exec i s = .next t) :
    t.runState = s.runState ∨ t.runState = .halted (.brk (opcodeAddr s)) ∨
      (i.wellFormed = false ∧ t.runState = .halted (.resolverMisuse i.mode (opcodeAddr s))) := by
  have hends := exec_ends i s
  generalize exec i s = r at h hends
  cases hends with
  | skips _ hcontrol =>
    obtain rfl := complete_eq_next.mp h
    exact .inl hcontrol.runState
  | redirects _ hcontrol =>
    obtain rfl := redirect_eq_next.mp h
    exact .inl hcontrol.runState
  | halts =>
    cases h
    exact .inr (.inl rfl)
  | misused hwf =>
    obtain rfl := misuse_eq_next.mp h
    exact .inr (.inr ⟨hwf, rfl⟩)
  | refused => exact nomatch h

/-- Where a handler leaves the machine Running, PC is its target or one past its operand (40_engine.md R80). -/
theorem exec_pc {i : Instr} {s t : State} (h : exec i s = .next t) (hrun : t.runState = .running) :
    t.pc = (redirectTarget i s).getD (nextPc i s) := by
  have hends := exec_ends i s
  generalize exec i s = r at h hends
  cases hends with
  | skips _ _ hpc htarget =>
    obtain rfl := complete_eq_next.mp h
    rw [htarget, skipOperands_pc, hpc, skip_from_opcode]
    rfl
  | redirects _ _ htarget =>
    obtain rfl := redirect_eq_next.mp h
    rw [htarget]
    rfl
  | halts =>
    cases h
    exact nomatch hrun
  | misused =>
    obtain rfl := misuse_eq_next.mp h
    exact nomatch hrun
  | refused => exact nomatch h

/-- An ill-formed instruction is a resolver misuse, unless the decimal refusal comes first (40_engine.md R84). -/
theorem exec_of_not_wellFormed {i : Instr} {s : State} (hwf : i.wellFormed = false)
    (hd : i.mnemonic = .ADC ∨ i.mnemonic = .SBC → decimalRefused s = false) :
    exec i s = misuse i.mode s := by
  have hends := exec_ends i s
  generalize exec i s = r at hends
  cases hends with
  | skips hwf' | redirects hwf' => exact absurd (hwf'.symm.trans hwf) Bool.true_eq_false.mp
  | halts hbrk => subst hbrk; exact nomatch hwf
  | misused => rfl
  | refused hi hd' => exact absurd (hd'.symm.trans (hd hi)) Bool.true_eq_false.mp

end Sys2Proof.Machine
end

section
/-! PROOF. The step of the engine: one equation for each thing it decides before dispatch, the reasons it halts for,
and PC after it. -/

namespace Sys2Proof.Machine

/-! ## What a step is -/

theorem step_of_unreset {s : State} (h : s.runState = .unreset) : step s = .fault .notReset := by
  simp only [step, prepare, h]

theorem step_of_halted {s : State} {r : HaltReason} (h : s.runState = .halted r) :
    step s = .fault (.alreadyHalted r) := by
  simp only [step, prepare, h]

section
variable {s : State} {i : Instr} {rest : List Byte} (hrun : s.runState = .running)
  (hdecode : decode (fetchBytes s) = .ok i rest)

include hrun hdecode

theorem step_of_unimplemented (hi : isUnimplemented s i.mnemonic = true) :
    step s = .next (handleUnimplemented i s) := by
  simp only [step, prepare, hrun, hdecode, hi, if_true]

theorem step_of_implemented (hi : isUnimplemented s i.mnemonic = false) : step s = exec i (fetched s) := by
  simp only [step, prepare, hrun, hdecode, hi, Bool.false_eq_true, if_false]

end

theorem isUnimplemented_iff {s : State} {m : Mnemonic} :
    isUnimplemented s m = true ↔ m ∈ s.config.unimplemented := List.contains_iff_mem

/-- Settles O39: the step is `exec` on the state after the opcode fetch. -/
theorem stepRunsTheDecodedInstruction : Obligations.StepRunsTheDecodedInstruction :=
  fun _ _ _ hrun hdecode hi => step_of_implemented hrun hdecode hi

/-- A running machine has no fault: the engine raises one in the other run states only, and no handler does
(40_engine.md R73). -/
theorem step_ne_fault_of_running {s : State} (hrun : s.runState = .running) (f : Fault) :
    step s ≠ .fault f := by
  cases hdecode : decode (fetchBytes s) with
  | reject r => simp [step_of_decode_reject hrun hdecode]
  | ok i rest =>
    cases hi : isUnimplemented s i.mnemonic with
    | true => simp [step_of_unimplemented hrun hdecode hi]
    | false =>
      rw [step_of_implemented hrun hdecode hi]
      exact exec_ne_fault i _ f

/-- Settles O40: only Running gets past the first check, and no handler faults. -/
theorem noStepUnlessRunning : Obligations.NoStepUnlessRunning :=
  ⟨fun _ => step_of_unreset, fun _ _ => step_of_halted,
    fun _ f hfault hrun => step_ne_fault_of_running hrun f hfault⟩

/-- Settles O41: an absent byte has no row in the table, so the step is the decode failure. -/
theorem decodeFailureHaltsWithByteAndAddress : Obligations.DecodeFailureHaltsWithByteAndAddress :=
  fun _ hrun habsent =>
    step_of_decode_reject hrun (decode_cons_of_absent ((lookupOpcode_eq_none_iff _).mpr habsent) _)

/-- Settles O38: 0x00 is BRK's opcode, and its handler only halts with the opcode's address. -/
theorem brkHaltsAtItsAddress : Obligations.BrkHaltsAtItsAddress := by
  refine ⟨rfl, rfl, fun _ => rfl, fun s hrun hbyte hi => ?_⟩
  have hdecode : decode (fetchBytes s) = .ok .brk [s.readByte (s.pc + 1), s.readByte (s.pc + 2)] := by
    rw [fetchBytes, hbyte]
    exact decode_of_opcodeOf (i := .brk) rfl _
  calc step s = exec .brk (fetched s) := step_of_implemented hrun hdecode hi
    _ = .next (raiseHalt (.brk (opcodeAddr (fetched s))) (fetched s)) := rfl
    _ = .next (raiseHalt (.brk s.pc) (fetched s)) := by rw [opcodeAddr_fetched]

/-! ## The reasons of a halt -/

/-- A decoded instruction is well formed (30_encoding.md R60). -/
theorem wellFormed_of_decode {s : State} {i : Instr} {rest : List Byte}
    (h : decode (fetchBytes s) = .ok i rest) : i.wellFormed = true :=
  (opcodeOf_of_decode h).2.1

/-- The reasons a step halts for: decode failure, an unimplemented mnemonic under `strict_fail`, or BRK
(60_exceptions.md R170). -/
theorem step_halt_reason {s t : State} {r : HaltReason} (h : step s = .next t) (hhalt : t.runState = .halted r) :
    r = .decodeError (fetchOpcode s) s.pc ∨
      (∃ m, m ∈ s.config.unimplemented ∧ s.config.unimplPolicy = .strictFail ∧ r = .unimplemented m s.pc) ∨
      r = .brk s.pc := by
  obtain ⟨hrun, ⟨_, -, rfl⟩ | ⟨i, _, hdecode, ⟨hi, rfl⟩ | ⟨-, hexec⟩⟩⟩ := step_cases h
  case inl => exact .inl (RunState.halted.inj hhalt).symm
  case inr.inl =>
    obtain ⟨hpolicy, hu⟩ | ⟨-, hu⟩ := handleUnimplemented_cases i s
    · rw [hu] at hhalt
      exact .inr (.inl ⟨i.mnemonic, isUnimplemented_iff.mp hi, hpolicy, (RunState.halted.inj hhalt).symm⟩)
    · rw [hu] at hhalt
      exact nomatch hrun.symm.trans hhalt
  case inr.inr =>
    obtain hkeep | hbrk | ⟨hwf, -⟩ := exec_runState hexec
    · exact nomatch (hkeep.trans hrun).symm.trans hhalt
    · rw [opcodeAddr_fetched] at hbrk
      exact .inr (.inr (RunState.halted.inj (hhalt.symm.trans hbrk)))
    · exact absurd ((wellFormed_of_decode hdecode).symm.trans hwf) Bool.true_eq_false.mp

/-- Settles O44: an ill-formed instruction is misused where it is not refused, and a decoded one is well formed. -/
theorem resolverMisuseIsNeverReachedByAStep : Obligations.ResolverMisuseIsNeverReachedByAStep := by
  refine ⟨fun i s hwf hbinary => exec_of_not_wellFormed hwf fun hi => ?_, fun s t mode addr h hhalt => ?_⟩
  · simpa [decimalRefused] using hbinary hi
  · obtain hr | ⟨_, -, -, hr⟩ | hr := step_halt_reason h hhalt <;> exact nomatch hr

/-! ## The unimplemented mnemonics -/

/-- The operand skip after the opcode fetch leads to the opcode address plus the length (40_engine.md R80). -/
theorem skip_after_fetch (pc : Word) (m : Mode) :
    pc + 1 + BitVec.ofNat 16 m.operandBytes = pc + BitVec.ofNat 16 m.length := by
  rw [skip_from_opcode, BitVec.add_sub_cancel]

theorem handleUnimplemented_of_strictFail {s : State} (h : s.config.unimplPolicy = .strictFail) (i : Instr) :
    handleUnimplemented i s =
      { s with pc := s.pc + 1, runState := .halted (.unimplemented i.mnemonic s.pc) } := by
  simp only [handleUnimplemented, h]
  rfl

theorem handleUnimplemented_of_permissiveSkip {s : State} (h : s.config.unimplPolicy = .permissiveSkip)
    (i : Instr) :
    handleUnimplemented i s =
      { s with pc := s.pc + BitVec.ofNat 16 i.length,
               diagnostics := s.diagnostics ++ [.unimplementedMnemonic i.mnemonic s.pc] } := by
  simp only [handleUnimplemented, h, Instr.length, ← skip_after_fetch]
  rfl

/-- With `UNIMPLEMENTED` empty nothing is logged (40_engine.md R83). -/
theorem step_keepsLog_of_none_unimplemented {s t : State} (hnone : s.config.unimplemented = [])
    (h : step s = .next t) : t.diagnostics = s.diagnostics := by
  obtain hlog | ⟨m, hm, -⟩ := step_log h
  · exact hlog
  · rw [hnone] at hm
    exact absurd hm List.not_mem_nil

/-- Settles O42: each policy has its own next state, and an empty set has no member to log or halt for. -/
theorem unimplementedMnemonicsFollowThePolicy : Obligations.UnimplementedMnemonicsFollowThePolicy := by
  refine ⟨fun s i rest hrun hdecode hi => ?_,
    fun s t hnone h => ⟨step_keepsLog_of_none_unimplemented hnone h, fun m a hhalt => ?_⟩⟩
  · rw [step_of_unimplemented hrun hdecode (isUnimplemented_iff.mpr hi)]
    exact ⟨fun h => congrArg _ (handleUnimplemented_of_strictFail h i),
      fun h => congrArg _ (handleUnimplemented_of_permissiveSkip h i)⟩
  · obtain hr | ⟨m', hm', -⟩ | hr := step_halt_reason h hhalt
    · exact nomatch hr
    · rw [hnone] at hm'
      exact absurd hm' List.not_mem_nil
    · exact nomatch hr

/-! ## PC after a step -/

/-- Settles O45: the handler alone moves PC after the fetch, by its redirect or by the operand skip. -/
theorem programCounterAfterAStep : Obligations.ProgramCounterAfterAStep := by
  intro s t i rest hdecode hi h hrun'
  obtain ⟨hrun, -⟩ := step_cases h
  rw [step_of_implemented hrun hdecode hi] at h
  have hpc := exec_pc h hrun'
  rwa [nextPc, opcodeAddr_fetched] at hpc

end Sys2Proof.Machine
end

section
/-! PROOF. The run: its first step decides whether it goes on, and what it answers after any number of steps. -/

namespace Sys2Proof.Machine

/-! ## Runs of steps from their first step -/

theorem StepsTo.zero_iff {s t : State} : StepsTo 0 s t ↔ t = s := by
  constructor
  · intro h
    cases h
    rfl
  · rintro rfl
    exact .refl t

theorem StepsTo.succ_iff_last {n : Nat} {s u : State} :
    StepsTo (n + 1) s u ↔ ∃ t, StepsTo n s t ∧ step t = .next u := by
  constructor
  · intro h
    cases h with
    | tail hsteps hstep => exact ⟨_, hsteps, hstep⟩
  · rintro ⟨t, hsteps, hstep⟩
    exact .tail hsteps hstep

/-- `n + 1` steps are the first step and `n` more. -/
theorem StepsTo.succ_iff_first {n : Nat} {s u : State} :
    StepsTo (n + 1) s u ↔ ∃ t, step s = .next t ∧ StepsTo n t u := by
  induction n generalizing u with
  | zero => simp [StepsTo.succ_iff_last, StepsTo.zero_iff]
  | succ n ih =>
    rw [StepsTo.succ_iff_last]
    simp only [ih, StepsTo.succ_iff_last (n := n)]
    constructor
    · rintro ⟨v, ⟨t, hfirst, hsteps⟩, hlast⟩
      exact ⟨t, hfirst, v, hsteps, hlast⟩
    · rintro ⟨t, hfirst, v, hsteps, hlast⟩
      exact ⟨v, ⟨t, hfirst, hsteps⟩, hlast⟩

/-- From a halted state no steps but none are taken (40_engine.md R73). -/
theorem StepsTo.of_halted {n : Nat} {s t : State} {r : HaltReason} (hs : s.runState = .halted r)
    (h : StepsTo n s t) : n = 0 ∧ t = s := by
  cases n with
  | zero => exact ⟨rfl, StepsTo.zero_iff.mp h⟩
  | succ n =>
    obtain ⟨u, hstep, -⟩ := StepsTo.succ_iff_first.mp h
    exact nomatch (step_of_halted hs).symm.trans hstep

/-! ## What a run answers -/

theorem run_zero_of_running {s : State} (h : s.runState = .running) : run 0 s = (.outOfFuel, s) := by
  simp only [run, h]

theorem run_of_unreset {s : State} (h : s.runState = .unreset) (n : Nat) :
    run n s = (.noStep .notReset, s) := by
  cases n with
  | zero => simp only [run, h]
  | succ n => simp only [run, step_of_unreset h]

theorem run_of_halted {s : State} {r : HaltReason} (h : s.runState = .halted r) (n : Nat) :
    run n s = (.noStep (.alreadyHalted r), s) := by
  cases n with
  | zero => simp only [run, h]
  | succ n => simp only [run, step_of_halted h]

/-- The first step decides a run with fuel: it goes on from the next state, it ends at a halt, or there is no next
state and it ends where it began (40_engine.md R85; assumption 12). -/
theorem run_succ_cases (s : State) :
    (∃ t, step s = .next t ∧ t.runState = .running ∧ ∀ n, run (n + 1) s = run n t) ∨
    (∃ t r, step s = .next t ∧ t.runState = .halted r ∧ ∀ n, run (n + 1) s = (.halted r, t)) ∨
    (∃ o, (∀ t, step s ≠ .next t) ∧ o ≠ .outOfFuel ∧ (∀ r, o ≠ .halted r) ∧
      ∀ n, run (n + 1) s = (o, s)) := by
  cases hstep : step s with
  | next t =>
    obtain ⟨hrun, -⟩ | ⟨r, -, ht⟩ := step_running_or_halts hstep
    · exact .inl ⟨t, rfl, hrun, fun n => by simp only [run, hstep, hrun]⟩
    · have hhalt : t.runState = .halted r := by rw [ht, raiseHalt_runState]
      exact .inr (.inl ⟨t, r, rfl, hhalt, fun n => by simp only [run, hstep, hhalt]⟩)
  | fault f => exact .inr (.inr ⟨.noStep f, by simp, by simp, by simp, fun n => by simp only [run, hstep]⟩)
  | refused r => exact .inr (.inr ⟨.refused r, by simp, by simp, by simp, fun n => by simp only [run, hstep]⟩)

/-- OutOfFuel: all the steps are taken and the machine still runs (40_engine.md R85). -/
theorem run_eq_outOfFuel_iff {fuel : Nat} {s t : State} :
    run fuel s = (.outOfFuel, t) ↔ StepsTo fuel s t ∧ t.runState = .running := by
  induction fuel generalizing s with
  | zero =>
    rw [StepsTo.zero_iff]
    cases hs : s.runState with
    | unreset => simp +contextual [run_of_unreset hs, hs]
    | halted r => simp +contextual [run_of_halted hs, hs]
    | running =>
      rw [run_zero_of_running hs]
      constructor
      · rintro ⟨⟩
        exact ⟨rfl, hs⟩
      · rintro ⟨rfl, -⟩
        rfl
  | succ fuel ih =>
    rw [StepsTo.succ_iff_first]
    obtain ⟨u, hstep, -, hr⟩ | ⟨u, r, hstep, hhalt, hr⟩ | ⟨o, hnone, ho, -, hr⟩ := run_succ_cases s
    · simp only [hr, ih, hstep, Host.Outcome.next.injEq, exists_eq_left']
    · rw [hr]
      refine ⟨fun h => (nomatch h), ?_⟩
      rintro ⟨⟨v, hv, hsteps⟩, hrun⟩
      obtain rfl : u = v := Host.Outcome.next.inj (hstep.symm.trans hv)
      obtain ⟨-, rfl⟩ := StepsTo.of_halted hhalt hsteps
      exact nomatch hhalt.symm.trans hrun
    · rw [hr]
      refine ⟨fun h => absurd (congrArg Prod.fst h) ho, ?_⟩
      rintro ⟨⟨v, hv, -⟩, -⟩
      exact absurd hv (hnone v)

/-- Halted: the last of at most `fuel` steps halts (40_engine.md R85). -/
theorem run_eq_halted_iff {fuel : Nat} {s t : State} {r : HaltReason} :
    run fuel s = (.halted r, t) ↔ t.runState = .halted r ∧ ∃ n < fuel, StepsTo (n + 1) s t := by
  induction fuel generalizing s with
  | zero =>
    cases hs : s.runState with
    | unreset => simp [run_of_unreset hs]
    | halted r => simp [run_of_halted hs]
    | running => simp [run_zero_of_running hs]
  | succ fuel ih =>
    simp only [StepsTo.succ_iff_first]
    obtain ⟨u, hstep, hrun, hr⟩ | ⟨u, r', hstep, hhalt, hr⟩ | ⟨o, hnone, -, ho, hr⟩ := run_succ_cases s
    · simp only [hr, ih, hstep, Host.Outcome.next.injEq, exists_eq_left']
      refine and_congr_right fun ht => ⟨?_, ?_⟩
      · rintro ⟨n, hn, hsteps⟩
        exact ⟨n + 1, by omega, hsteps⟩
      · rintro ⟨n, hn, hsteps⟩
        cases n with
        | zero =>
          obtain rfl := StepsTo.zero_iff.mp hsteps
          exact nomatch hrun.symm.trans ht
        | succ n => exact ⟨n, by omega, hsteps⟩
    · rw [hr]
      constructor
      · rintro ⟨⟩
        exact ⟨hhalt, 0, by omega, t, hstep, .refl t⟩
      · rintro ⟨ht, n, -, v, hv, hsteps⟩
        obtain rfl : u = v := Host.Outcome.next.inj (hstep.symm.trans hv)
        obtain ⟨-, rfl⟩ := StepsTo.of_halted hhalt hsteps
        obtain rfl := RunState.halted.inj (hhalt.symm.trans ht)
        rfl
    · rw [hr]
      refine ⟨fun h => absurd (congrArg Prod.fst h) (ho r), ?_⟩
      rintro ⟨-, n, -, v, hv, -⟩
      exact absurd hv (hnone v)

/-- Settles O55: by induction on the fuel, the first step of the run against the first of the steps. -/
theorem runStopsAtAHaltOrAtItsFuel : Obligations.RunStopsAtAHaltOrAtItsFuel := by
  refine fun fuel s t => ⟨run_eq_outOfFuel_iff, fun r => ?_⟩
  simp only [run_eq_halted_iff, StepsTo.succ_iff_last, exists_and_left]

/-- Settles O56: by induction on the fuel of the first run; a run that has answered answers the same with more. -/
theorem runIsResumable : Obligations.RunIsResumable := by
  intro m n s
  induction m generalizing s with
  | zero =>
    rw [Nat.zero_add]
    cases hs : s.runState with
    | unreset => simp only [run_of_unreset hs]
    | halted r => simp only [run_of_halted hs]
    | running => simp only [run_zero_of_running hs]
  | succ m ih =>
    rw [Nat.add_right_comm]
    obtain ⟨t, -, -, hr⟩ | ⟨t, r, -, -, hr⟩ | ⟨o, -, ho, -, hr⟩ := run_succ_cases s
    · rw [hr, hr]
      exact ih t
    · rw [hr, hr]
    · rw [hr, hr]
      cases o with
      | outOfFuel => exact absurd rfl ho
      | _ => rfl

end Sys2Proof.Machine
end

section
/-! PROOF. The host's writes: what each changes, and what the host reads after it. -/

namespace Sys2Proof.Machine

/-- No host write touches the run state, the log or the parameters (40_engine.md R87). -/
theorem State.poke_sameControl (s : State) (w : Poke) : SameControl s (s.poke w) := by
  cases w with
  | reg r v => cases r <;> exact ⟨rfl, rfl, rfl⟩
  | bit f b => exact ⟨rfl, rfl, rfl⟩
  | cell a v => exact ⟨rfl, rfl, rfl⟩

@[simp] theorem State.poke_reg_mem (s : State) (r : Reg) (v : Nat) : (s.poke (.reg r v)).mem = s.mem := by
  cases r <;> rfl

/-- After a reset the host reads back what it wrote, reduced to the width (40_engine.md R87; assumption 13). -/
theorem State.inspectReg_poke_self {s : State} (hs : s.runState ≠ .unreset) (r : Reg) (v : Nat) :
    (s.poke (.reg r v)).inspectReg r = some (v % (if r = .PC then 65536 else 256)) := by
  cases hrun : s.runState with
  | unreset => exact absurd hrun hs
  | running | halted =>
    cases r <;> simp [State.inspectReg, State.poke, hrun]

theorem State.inspectReg_poke_other (s : State) {q r : Reg} (h : q ≠ r) (v : Nat) :
    (s.poke (.reg r v)).inspectReg q = s.inspectReg q := by
  cases q <;> cases r
  case A.A | X.X | Y.Y | S.S | PC.PC | P.P => exact absurd rfl h
  all_goals rfl

/-- Settles O60: a write is an update of one field, and a flag or a cell is read back as it was put. -/
theorem hostWritesTakeTheValueReduced : Obligations.HostWritesTakeTheValueReduced := by
  intro s
  refine ⟨fun v => ⟨rfl, rfl, rfl, rfl, rfl, rfl⟩,
    fun r v hs => ⟨State.inspectReg_poke_self hs r v, fun q hq => s.inspectReg_poke_other hq v,
      s.poke_reg_mem r v⟩,
    fun f b => ⟨rfl, (s.setFlag_flag f f b).trans (if_pos rfl),
      fun g hg => (s.setFlag_flag f g b).trans (if_neg hg)⟩,
    fun a v => ⟨rfl, ⟨fun hs => State.readByte_writeByte_self hs a _,
      fun b hb => s.readByte_writeByte_other _ hb⟩, fun _ => rfl⟩, fun w => ?_⟩
  obtain ⟨hrun, hlog, hconfig⟩ := s.poke_sameControl w
  exact ⟨hrun, hlog, hconfig⟩

end Sys2Proof.Machine
end

section
/-! PROOF. The address resolver as arithmetic on numbers, and a pull after a push. -/

namespace Sys2Proof.Machine

/-! ## The sums of the resolver -/

/-- `+8`, then the extension: the sum stays in the zero page (41_addressing.md R95, R96). -/
theorem zext16_add_toNat (a b : Byte) : (zext16 (a + b)).toNat = (a.toNat + b.toNat) % 256 := by
  rw [zext16_toNat, BitVec.toNat_add]

/-- `+16` of an extended index (41_addressing.md R99, R100, R103). -/
theorem add_zext16_toNat (w : Word) (b : Byte) : (w + zext16 b).toNat = (w.toNat + b.toNat) % 65536 := by
  rw [BitVec.toNat_add, zext16_toNat]

/-- The zero-page address of a byte known modulo 256, as the statements write it. -/
theorem zext16_eq_ofNat {p : Byte} {n : Nat} (h : p.toNat = n % 256) :
    zext16 p = BitVec.ofNat 16 (n % 256) := by
  rw [← h, ← zext16_toNat, BitVec.ofNat_toNat, BitVec.setWidth_eq]

/-! ## Pointers -/

/-- The pointer at `n` modulo 256: both its bytes come from the zero page (41_addressing.md R102, R103). -/
theorem zeroPagePointer_toNat {p : Byte} {n : Nat} (h : p.toNat = n % 256) (s : State) :
    (zeroPagePointer p s).toNat = (s.readByte (BitVec.ofNat 16 (n % 256))).toNat +
      256 * (s.readByte (BitVec.ofNat 16 ((n + 1) % 256))).toNat := by
  have hnext : (p + 1).toNat = (n + 1) % 256 := by
    rw [BitVec.toNat_add, h]
    exact Nat.mod_add_mod n 256 1
  rw [zeroPagePointer, word_toNat, zext16_eq_ofNat h, zext16_eq_ofNat hnext]
  omega

theorem word_and_word (h l h' l' : Byte) : word h l &&& word h' l' = word (h &&& h') (l &&& l') :=
  BitVec.and_append

/-- The start of the page of an address (41_addressing.md R101). -/
theorem and_pageMask (w : Word) : w &&& 0xFF00 = BitVec.ofNat 16 (w.toNat / 256 * 256) := by
  calc w &&& 0xFF00 = word (hi w) (lo w) &&& word 0xFF 0x00 := by rw [word_hi_lo]; rfl
    _ = word (hi w) 0x00 := by
      rw [word_and_word]
      exact congrArg₂ word BitVec.and_allOnes BitVec.and_zero
    _ = BitVec.ofNat 16 (w.toNat / 256 * 256) := by simp [word_eq_ofNat, hi_toNat]

theorem lo_eq_pageEnd_iff (w : Word) : lo w = 0xFF ↔ w.toNat % 256 = 255 := by
  rw [← BitVec.toNat_inj, lo_toNat]
  rfl

/-- The word an Indirect operand points to, with its high byte's address written out (41_addressing.md R101). -/
theorem indirectWord_eq (ptr : Word) (s : State) :
    indirectWord ptr s = word
      (if s.config.jmpIndPageWrap = true ∧ ptr.toNat % 256 = 255
       then s.readByte (BitVec.ofNat 16 (ptr.toNat / 256 * 256))
       else s.readByte (BitVec.ofNat 16 (ptr.toNat + 1))) (s.readByte ptr) := by
  have hnext : ptr + 1 = BitVec.ofNat 16 (ptr.toNat + 1) := by
    rw [BitVec.ofNat_add, BitVec.ofNat_toNat, BitVec.setWidth_eq]
    rfl
  simp only [indirectWord, Bool.and_eq_true, beq_iff_eq, lo_eq_pageEnd_iff]
  split
  case isTrue => rw [and_pageMask]
  case isFalse => rw [← hnext]; rfl

/-! ## The modes -/

/-- Settles O7: an index is added before the extension. -/
theorem zeroPageModesAddInEightBits : Obligations.ZeroPageModesAddInEightBits :=
  fun zp s => ⟨⟨_, rfl, zext16_toNat zp⟩, ⟨_, rfl, zext16_add_toNat zp s.x⟩,
    ⟨_, rfl, zext16_add_toNat zp s.y⟩⟩

/-- Settles O8: an index is extended before it is added. -/
theorem absoluteModesAddInSixteenBits : Obligations.AbsoluteModesAddInSixteenBits :=
  fun w s => ⟨⟨_, rfl, rfl⟩, ⟨_, rfl, add_zext16_toNat w s.x⟩, ⟨_, rfl, add_zext16_toNat w s.y⟩⟩

/-- Settles O9: the page mask and the successor are the two addresses of the high byte. -/
theorem indirectReadsTheWordAtThePointer : Obligations.IndirectReadsTheWordAtThePointer := by
  refine fun ptr s => ⟨_, rfl, ?_⟩
  rw [indirectWord_eq, word_toNat]
  omega

/-- Settles O10: X goes into the pointer's zero-page address, Y onto the word the pointer holds. -/
theorem zeroPagePointersWrapInTheZeroPage : Obligations.ZeroPagePointersWrapInTheZeroPage := by
  refine fun zp s => ⟨⟨_, rfl, zeroPagePointer_toNat (BitVec.toNat_add zp s.x) s⟩, ⟨_, rfl, ?_⟩⟩
  rw [add_zext16_toNat, zeroPagePointer_toNat (Nat.mod_eq_of_lt zp.isLt).symm]

/-- Settles O11: the target is the signed sum reduced to a word. -/
theorem relativeTargetsAreSignedAndWrap : Obligations.RelativeTargetsAreSignedAndWrap := by
  refine fun b s => ⟨rfl, rfl, _, rfl, ?_⟩
  rw [relativeTarget_eq_ofInt, BitVec.toNat_ofInt]
  exact Int.toNat_of_nonneg (Int.emod_nonneg _ (by decide))

/-! ## A pull after a push -/

/-- The pull looks at S and the memory alone, so what else changes after the push does not matter
(41_addressing.md R105, R106). -/
theorem pulled_after_push {s r : State} (hs : s.Canonical) {v : Byte} (hmem : r.mem = (push v s).mem)
    (hsp : r.sp = (push v s).sp) : pulled r = v := by
  have hpush := pulled_push hs v
  unfold pulled at hpush ⊢
  rwa [hsp, State.readByte_congr hmem]

/-- Bits 4 and 5 of the pushed copy are those of B and B2 (43_transfer_stack.md R122). -/
theorem getFlag_pushedStatus {p : Byte} {f : Flag} (hB : f ≠ .B) (hB2 : f ≠ .B2) :
    getFlag (pushedStatus p) f = getFlag p f := by
  cases f
  case B => exact absurd rfl hB
  case B2 => exact absurd rfl hB2
  all_goals simp [getFlag, pushedStatus, Flag.bit]

/-- Settles O20: the byte pulled is the byte pushed, and the pushed status has every flag but B and B2. -/
theorem pullAfterPushRestores : Obligations.PullAfterPushRestores := by
  intro s t v p pc hs
  refine ⟨fun h => ?_, fun h => ?_⟩
  · obtain rfl := complete_eq_next.mp h
    exact ⟨_, rfl, pulled_after_push hs rfl rfl, BitVec.sub_add_cancel s.sp 1, rfl⟩
  · obtain rfl := complete_eq_next.mp h
    refine ⟨_, rfl, BitVec.sub_add_cancel s.sp 1, rfl, fun f hB hB2 => ?_⟩
    simp only [State.flag, skipOperands_p, pullStatus_p, getFlag_restoredStatus, hB, hB2, or_self, if_false]
    exact (congrArg (getFlag · f) (pulled_after_push hs rfl rfl)).trans (getFlag_pushedStatus hB hB2)

end Sys2Proof.Machine
end

section
/-! PROOF. The terms of the statements about single instructions, in terms of the operations: the encodings of a
rule, a completion with its frame and flags, and a completed store. -/

namespace Sys2Proof.Machine

/-! ## The encodings of a rule -/

/-- The "Encodings" line of a rule is the mode list of its mnemonic with the encoder's opcodes. -/
theorem encodes_of_modes {c : Operand → Instr} {m : Mnemonic} {line : List (Mode × Byte)}
    (hmodes : m.modes = line.map Prod.fst) (hop : ∀ e ∈ line, opcodeOf m e.1 = some e.2)
    (hm : ∀ o, (c o).mnemonic = m := by exact fun _ => rfl)
    (ho : ∀ o, (c o).operand = o := by exact fun _ => rfl) : Encodes c line := by
  refine ⟨fun o => ?_, fun o op h => ?_⟩
  · rw [Instr.wellFormed, Instr.mode, hm, ho, hmodes, List.contains_iff_mem]
  · have hopcode : opcodeOf (c o).mnemonic (c o).mode = some op := by
      rw [Instr.mode, hm, ho]
      exact hop _ h
    rw [encode_of_opcodeOf hopcode, ho]

/-! ## The flags after -/

theorem flagsAfter_nil {s t : State} (h : ∀ f, t.flag f = s.flag f) : FlagsAfter s t [] := h

/-- Z and N follow a result and no other flag changes (10_state.md R23). -/
theorem flagsAfter_setZN {s u : State} (r : Byte) (h : ∀ f, u.flag f = s.flag f) :
    FlagsAfter s (setZN r u) (zn r) := by
  intro f
  rw [setZN_flag, h]
  cases f <;> rfl

/-! ## Completions -/

section
variable {i : Instr} {s : State}

/-- With PC one past the opcode, the operand skip is the move to the next instruction (40_engine.md R78, R80). -/
theorem skipOperands_pc_eq_nextPc {u : State} (hpc : u.pc = s.pc) :
    (skipOperands i.mode u).pc = nextPc i s := by
  rw [skipOperands_pc, hpc, skip_from_opcode]
  rfl

/-- A handler that ends in the operand skip after changing `s` into `r`, but for P, completes as `r` with the next
PC. -/
theorem completesAs_of_complete {r u : State} {written : List (Flag × Bool)}
    (hexec : exec i s = complete i.mode u) (hu : u = r.setP u.p) (hpc : r.pc = s.pc)
    (hflags : FlagsAfter s u written) : CompletesAs i s (r.setPc (nextPc i s)) written := by
  have hnext : (skipOperands i.mode r).pc = nextPc i s := skipOperands_pc_eq_nextPc hpc
  refine ⟨skipOperands i.mode u, hexec, ?_, hflags⟩
  rw [hu, ← hnext]
  rfl

/-- A handler that reads its operand, and changes `s` into `r v`, but for P, on the operand's byte `v`
(41_addressing.md R107). -/
theorem completesAs_of_withOperand {k : Byte → State → State} {r : Byte → State}
    {written : Byte → List (Flag × Bool)} (hexec : exec i s = withOperand i.mnemonic i.operand k s)
    (hk : ∀ v, k v s = (r v).setP (k v s).p) (hpc : ∀ v, (r v).pc = s.pc)
    (hflags : ∀ v, FlagsAfter s (k v s) (written v)) (hwf : i.wellFormed = true)
    (hmodes : .noAddressing ∉ i.mnemonic.modes ∧ .relative ∉ i.mnemonic.modes := by
      simp [Instr.mnemonic, Mnemonic.modes]) :
    ∃ v, OperandIs i.operand s v ∧ CompletesAs i s ((r v).setPc (nextPc i s)) (written v) := by
  obtain ⟨hnone, hrelative⟩ := hmodes
  obtain ⟨v, hv⟩ := readOperand_isSome s (mode_ne_of_not_mem hwf hnone) (mode_ne_of_not_mem hwf hrelative)
  exact ⟨v, readOperand_eq_some.mp hv,
    completesAs_of_complete (hexec.trans (withOperand_eq hwf hv)) (hk v) (hpc v) (hflags v)⟩

/-! ## Completed stores -/

/-- A write stores one byte and no other (20_memory.md R41, R42). -/
theorem storesOnly_of_mem {t : State} {a : Word} {v : Byte} (h : t.mem = s.mem.writeByte a v) :
    StoresOnly s t a v := by
  have hread (b : Word) : t.readByte b = (s.writeByte a v).readByte b := State.readByte_congr h b
  exact ⟨fun hs => (hread a).trans (State.readByte_writeByte_self hs a v),
    fun b hb => (hread b).trans (s.readByte_writeByte_other v hb)⟩

/-- A handler on its operand's address `ea` that ends in the operand skip after storing a byte there, with whatever
flags, completes storing it (41_addressing.md R107). -/
theorem completesStoring_of_withAddress {k : Word → State → Result} {u : Word → State} {v : Byte → Byte}
    {written : Byte → List (Flag × Bool)} (hexec : exec i s = withAddress i.mnemonic i.operand k s)
    (hk : ∀ ea, k ea s = complete i.mode (u ea))
    (hu : ∀ ea, u ea = (s.writeByte ea (v (s.readByte ea))).setP (u ea).p)
    (hflags : ∀ ea, FlagsAfter s (u ea) (written (s.readByte ea))) (hwf : i.wellFormed = true)
    (haddr : Addressed i.mnemonic i.operand := by simp [Addressed, Instr.mnemonic, Mnemonic.modes]) :
    CompletesStoring i s v written := by
  obtain ⟨ea, hea⟩ := haddr.effectiveAddr_isSome s hwf
  have hpc : (u ea).pc = s.pc := by
    rw [hu ea]
    rfl
  have hmem : (u ea).mem = s.mem.writeByte ea (v (s.readByte ea)) := by
    rw [hu ea]
    rfl
  refine ⟨ea, skipOperands i.mode (u ea), effectiveAddr_eq_some.mp hea,
    (hexec.trans (withAddress_eq hwf hea)).trans (hk ea), ?_, storesOnly_of_mem hmem, hflags ea⟩
  rw [← skipOperands_pc_eq_nextPc hpc, hu ea]
  rfl

end

end Sys2Proof.Machine
end

section
/-! PROOF. The loads and the stores. -/

namespace Sys2Proof.Machine

section
variable {i : Instr} {s : State}

/-- A load sets its register, then Z and N, from the operand's byte (42_load_store.md R109 to R111). -/
theorem load_completesAs {set : Byte → State → State}
    (hexec : exec i s = withOperand i.mnemonic i.operand (fun v t => setZN v (set v t)) s)
    (hpc : ∀ v, (set v s).pc = s.pc) (hp : ∀ v, (set v s).p = s.p) (hwf : i.wellFormed = true)
    (hmodes : .noAddressing ∉ i.mnemonic.modes ∧ .relative ∉ i.mnemonic.modes := by
      simp [Instr.mnemonic, Mnemonic.modes]) :
    ∃ v, OperandIs i.operand s v ∧ CompletesAs i s ((set v s).setPc (nextPc i s)) (zn v) :=
  completesAs_of_withOperand (r := fun v => set v s) hexec (fun _ => rfl) hpc
    (fun v => flagsAfter_setZN v fun f => congrArg (getFlag · f) (hp v)) hwf hmodes

/-- A store writes one byte of memory, and neither P nor a register (42_load_store.md R112 to R114). -/
theorem store_completesStoring {v : Byte} (hexec : exec i s = storeOperand i.mnemonic i.operand v s)
    (hwf : i.wellFormed = true)
    (haddr : Addressed i.mnemonic i.operand := by simp [Addressed, Instr.mnemonic, Mnemonic.modes]) :
    CompletesStoring i s (fun _ => v) (fun _ => []) :=
  completesStoring_of_withAddress (u := fun ea => s.writeByte ea v) hexec (fun _ => rfl) (fun _ => rfl)
    (fun _ => flagsAfter_nil fun _ => rfl) hwf haddr

end

/-- Settles O15: one lemma about a load, at the three registers. -/
theorem loadsCopyTheOperandAndSetZN : Obligations.LoadsCopyTheOperandAndSetZN :=
  ⟨encodes_of_modes (m := .LDA) rfl (by decide),
    encodes_of_modes (m := .LDX) rfl (by decide),
    encodes_of_modes (m := .LDY) rfl (by decide),
    fun _ _ => ⟨load_completesAs (set := State.setA) rfl (fun _ => rfl) (fun _ => rfl),
      load_completesAs (set := State.setX) rfl (fun _ => rfl) (fun _ => rfl),
      load_completesAs (set := State.setY) rfl (fun _ => rfl) (fun _ => rfl)⟩⟩

/-- Settles O16: one lemma about a store, at the three registers. -/
theorem storesWriteTheRegisterAndNoFlag : Obligations.StoresWriteTheRegisterAndNoFlag :=
  ⟨encodes_of_modes (m := .STA) rfl (by decide),
    encodes_of_modes (m := .STX) rfl (by decide),
    encodes_of_modes (m := .STY) rfl (by decide),
    fun _ _ => ⟨store_completesStoring rfl, store_completesStoring rfl, store_completesStoring rfl⟩⟩

end Sys2Proof.Machine
end

section
/-! PROOF. The transfers and the stack instructions. -/

namespace Sys2Proof.Machine

/-- S of a pull, as the statements write it (43_transfer_stack.md R123, R124). -/
theorem dropPulled_sp_eq_ofNat (s : State) : (dropPulled s).sp = BitVec.ofNat 8 (s.sp.toNat + 1) := by
  simp [BitVec.ofNat_add]

/-- S of a push: one less modulo 256 (43_transfer_stack.md R121, R122). -/
theorem push_sp_eq_ofNat (v : Byte) (s : State) : (push v s).sp = BitVec.ofNat 8 (s.sp.toNat + 255) := by
  rw [push_sp, BitVec.ofNat_add, BitVec.ofNat_toNat, BitVec.setWidth_eq]
  exact BitVec.sub_eq_add_neg s.sp 1

section
variable {i : Instr} {s : State}

/-- A handler that ends in `SetZN` of the byte `v` it put in a register of `r` completes as `r` with the next PC
(10_state.md R23; 43_transfer_stack.md R115 to R118, R120, R123). -/
theorem completesAs_of_setZN {r : State} {v : Byte} (hexec : exec i s = complete i.mode (setZN v r))
    (hpc : r.pc = s.pc) (hp : r.p = s.p) : CompletesAs i s (r.setPc (nextPc i s)) (zn v) :=
  completesAs_of_complete hexec rfl hpc (flagsAfter_setZN v fun f => congrArg (getFlag · f) hp)

/-- A handler that pushes `v` and ends stores it at the stack byte of the old S; else only S and PC change
(43_transfer_stack.md R121, R122). -/
theorem push_completes {v : Byte} (hexec : exec i s = complete i.mode (push v s)) :
    ∃ t, exec i s = .next t ∧
      t = { s with mem := t.mem, sp := BitVec.ofNat 8 (s.sp.toNat + 255), pc := nextPc i s } ∧
      StoresOnly s t (stackCell s.sp.toNat) v := by
  refine ⟨_, hexec, ?state, ?stored⟩
  case state =>
    rw [← push_sp_eq_ofNat v, ← skipOperands_pc_eq_nextPc (push_pc s v)]
    rfl
  case stored =>
    rw [← stackAddr_eq_stackCell]
    exact storesOnly_of_mem rfl

end

/-- PLP writes every flag from the pulled byte but B and B2 (43_transfer_stack.md R124). -/
theorem flagsAfter_pullStatus (s : State) : FlagsAfter s (pullStatus s)
    [(.N, (pulled s).getLsbD 7), (.V, (pulled s).getLsbD 6), (.D, (pulled s).getLsbD 3),
     (.I, (pulled s).getLsbD 2), (.Z, (pulled s).getLsbD 1), (.C, (pulled s).getLsbD 0)] := by
  intro f
  rw [State.flag, pullStatus_p, getFlag_restoredStatus]
  cases f <;> rfl

/-- Settles O17: one lemma about a handler that ends in `SetZN`, at the five transfers that do; TXS changes S
alone. -/
theorem transfersCopyAndOnlyTXSKeepsFlags : Obligations.TransfersCopyAndOnlyTXSKeepsFlags :=
  ⟨⟨encode_of_opcodeOf rfl, encode_of_opcodeOf rfl, encode_of_opcodeOf rfl, encode_of_opcodeOf rfl,
      encode_of_opcodeOf rfl, encode_of_opcodeOf rfl⟩,
    fun s => ⟨completesAs_of_setZN (r := s.setX s.a) rfl rfl rfl,
      completesAs_of_setZN (r := s.setY s.a) rfl rfl rfl,
      completesAs_of_setZN (r := s.setX s.sp) rfl rfl rfl,
      completesAs_of_setZN (r := s.setA s.x) rfl rfl rfl,
      completesAs_of_complete (r := s.setSp s.x) rfl rfl rfl (flagsAfter_nil fun _ => rfl),
      completesAs_of_setZN (r := s.setA s.y) rfl rfl rfl⟩⟩

/-- Settles O18: one lemma about a push, at A and at the copy of P. -/
theorem pushesStoreAtTheStackByteThenDecrement : Obligations.PushesStoreAtTheStackByteThenDecrement :=
  ⟨⟨encode_of_opcodeOf rfl, encode_of_opcodeOf rfl⟩,
    fun _ => ⟨push_completes rfl, push_completes rfl⟩⟩

/-- Settles O19: both read the byte of the incremented S; PLA ends in `SetZN` of it, and PLP restores P from it. -/
theorem pullsIncrementThenReadTheStackByte : Obligations.PullsIncrementThenReadTheStackByte := by
  refine ⟨⟨encode_of_opcodeOf rfl, encode_of_opcodeOf rfl⟩, fun s => ?_⟩
  rw [← dropPulled_sp_eq_ofNat, ← pulled_eq_readByte]
  refine ⟨completesAs_of_setZN (r := (dropPulled s).setA (pulled s)) rfl rfl rfl, ?plp,
    completesAs_of_complete (r := dropPulled s) rfl rfl rfl (flagsAfter_pullStatus s)⟩
  rw [← skipOperands_pc_eq_nextPc (s := s) (u := pullStatus s) rfl]
  rfl

end Sys2Proof.Machine
end

section
/-! PROOF. The adder, add and subtract, and the decimal refusal. -/

namespace Sys2Proof.Machine

/-! ## The adder -/

/-- The 9-bit sum is the result with the carry as bit 8 (44_arithmetic.md R125). -/
theorem addCore_toNat (a m : Byte) (cin : Bool) :
    (addCore a m cin).result.toNat + 256 * (addCore a m cin).carry.toNat = a.toNat + m.toNat + cin.toNat := by
  have ha := a.isLt
  have hm := m.isLt
  have hc := cin.toNat_lt
  have hcarry : (addCore a m cin).carry.toNat = if 255 < a.toNat + m.toNat + cin.toNat then 1 else 0 :=
    Bool.cond_decide ..
  rw [hcarry, addCore, BitVec.toNat_ofNat]
  split <;> omega

/-- Overflow is the sign rule (44_arithmetic.md R125). -/
theorem addCore_overflow_iff_msb (a m : Byte) (cin : Bool) :
    (addCore a m cin).overflow = true ↔ a.msb = m.msb ∧ (addCore a m cin).result.msb ≠ a.msb := by
  simp [addCore]

theorem addCore_overflow_eq_msb_xor (a m : Byte) (cin : Bool) :
    (addCore a m cin).overflow =
      ((a ^^^ (addCore a m cin).result) &&& (m ^^^ (addCore a m cin).result)).msb := by
  rw [Bool.eq_iff_iff, addCore_overflow_iff_msb, BitVec.msb_and, BitVec.msb_xor, BitVec.msb_xor]
  generalize (addCore a m cin).result.msb = r
  cases a.msb <;> cases m.msb <;> cases r <;> decide

/-- Overflow is the signed sum out of range (44_arithmetic.md R125). -/
theorem addCore_overflow_iff_toInt (a m : Byte) (cin : Bool) :
    (addCore a m cin).overflow = true ↔
      a.toInt + m.toInt + cin.toNat < -128 ∨ 127 < a.toInt + m.toInt + cin.toNat := by
  have ha := a.isLt
  have hm := m.isLt
  have hc := cin.toNat_lt
  rw [addCore_overflow_iff_msb]
  simp only [addCore, BitVec.msb_eq_decide, BitVec.toInt_eq_toNat_cond, BitVec.toNat_ofNat, ne_eq,
    decide_eq_decide]
  omega

/-- Settles O14: the sum as a number, the sign rule, its bitwise form, and the signed sum. -/
theorem adderIsTheFullNineBitSum : Obligations.AdderIsTheFullNineBitSum :=
  fun a m cin => ⟨addCore_toNat a m cin, addCore_overflow_iff_msb a m cin,
    addCore_overflow_eq_msb_xor a m cin, addCore_overflow_iff_toInt a m cin⟩

/-! ## The adder on a complement -/

/-- The borrow a carry-in stands for (44_arithmetic.md R128). -/
def borrow (cin : Bool) : Nat := if cin then 0 else 1

theorem borrow_add_toNat (cin : Bool) : borrow cin + cin.toNat = 1 := by cases cin <;> rfl

/-- The difference `a - m - b` modulo 256, whether it needs no borrow, and whether it leaves the signed range
(44_arithmetic.md R128). -/
def difference (a m : Byte) (b : Nat) : Sum :=
  { result := a - m - BitVec.ofNat 8 b
    carry := decide (m.toNat + b ≤ a.toNat)
    overflow := decide (a.toInt - m.toInt - b < -128 ∨ 127 < a.toInt - m.toInt - b) }

theorem toInt_complement (m : Byte) : (~~~m).toInt = -m.toInt - 1 := by
  have hm := m.isLt
  simp only [BitVec.toInt_eq_toNat_cond, BitVec.toNat_not]
  omega

/-- The adder on the complement of `m` subtracts `m` and the borrow: `~m` is 255 - m as a number and -m - 1 as a
signed one (44_arithmetic.md R128). -/
theorem addCore_complement (a m : Byte) (cin : Bool) :
    addCore a (~~~m) cin = difference a m (borrow cin) := by
  have hm := m.isLt
  have hb := borrow_add_toNat cin
  have hresult : (addCore a (~~~m) cin).result = a - m - BitVec.ofNat 8 (borrow cin) := by
    simp only [addCore]
    bv_omega
  have hcarry : (addCore a (~~~m) cin).carry = decide (m.toNat + borrow cin ≤ a.toNat) := by
    simp only [addCore, BitVec.toNat_not, decide_eq_decide]
    omega
  have hoverflow : (addCore a (~~~m) cin).overflow = (difference a m (borrow cin)).overflow := by
    rw [Bool.eq_iff_iff, addCore_overflow_iff_toInt, toInt_complement, difference, decide_eq_true_iff]
    omega
  rw [difference, ← hresult, ← hcarry]
  exact congrArg (Sum.mk _ _) hoverflow

/-! ## Add and subtract -/

/-- A sum written to A sets C, V, Z and N and no other flag (44_arithmetic.md R127, R128). -/
theorem flagsAfter_takeSum (r : Sum) (s : State) :
    FlagsAfter s (takeSum r s) ([(.C, r.carry), (.V, r.overflow)] ++ zn r.result) := by
  intro f
  rw [takeSum_flag]
  cases f <;> rfl

theorem decimalRefused_iff {s : State} :
    decimalRefused s = true ↔ s.config.decimalArith = .refuse ∧ s.flag .D = true := by
  simp [decimalRefused]

/-- `i` completes from `s` with the sum `r`: A takes it, PC moves to the next instruction, and of the flags C, V, Z
and N follow it (44_arithmetic.md R127, R128). -/
def TakesSum (i : Instr) (s : State) (r : Sum) : Prop :=
  CompletesAs i s ((s.setA r.result).setPc (nextPc i s)) ([(.C, r.carry), (.V, r.overflow)] ++ zn r.result)

theorem TakesSum.exists_next {i : Instr} {s : State} {r : Sum} (h : TakesSum i s r) :
    ∃ t, exec i s = .next t ∧ t.a = r.result ∧ t.runState = s.runState := by
  obtain ⟨t, hexec, ht, -⟩ := h
  rw [ht] at hexec
  exact ⟨_, hexec, rfl, rfl⟩

/-- A handler that is refused in decimal mode, and else writes to A a sum made from its operand's byte, completes
with that sum where it is not refused (44_arithmetic.md R126). -/
theorem takesSum_of_not_refused {i : Instr} {s : State} {sum : Byte → State → Sum}
    (hexec : exec i s = if decimalRefused s then .refused (.decimalMode (opcodeAddr s))
      else withOperand i.mnemonic i.operand (fun v t => takeSum (sum v t) t) s)
    (hwf : i.wellFormed = true) (hd : ¬ (s.config.decimalArith = .refuse ∧ s.flag .D = true))
    (hmodes : .noAddressing ∉ i.mnemonic.modes ∧ .relative ∉ i.mnemonic.modes := by
      simp [Instr.mnemonic, Mnemonic.modes]) :
    ∃ v, OperandIs i.operand s v ∧ TakesSum i s (sum v s) :=
  completesAs_of_withOperand (r := fun v => s.setA (sum v s).result)
    (hexec.trans (if_neg fun h => hd (decimalRefused_iff.mp h))) (fun _ => rfl) (fun _ => rfl)
    (fun v => flagsAfter_takeSum (sum v s) s) hwf hmodes

section
variable {o : Operand} {s : State}

theorem adc_takesSum (hwf : (Instr.adc o).wellFormed = true)
    (hd : ¬ (s.config.decimalArith = .refuse ∧ s.flag .D = true)) :
    ∃ v, OperandIs o s v ∧ TakesSum (.adc o) s (addCore s.a v (s.flag .C)) :=
  takesSum_of_not_refused (sum := fun v t => addCore t.a v (t.flag .C)) rfl hwf hd

theorem sbc_takesSum (hwf : (Instr.sbc o).wellFormed = true)
    (hd : ¬ (s.config.decimalArith = .refuse ∧ s.flag .D = true)) :
    ∃ v, OperandIs o s v ∧ TakesSum (.sbc o) s (difference s.a v (borrow (s.flag .C))) := by
  simp only [← addCore_complement]
  exact takesSum_of_not_refused (sum := fun v t => addCore t.a (~~~v) (t.flag .C)) rfl hwf hd

end

/-- Settles O21: the adder's definition is the sum as the rule writes it. -/
theorem adcAddsWithCarry : Obligations.AdcAddsWithCarry :=
  ⟨encodes_of_modes (m := .ADC) rfl (by decide), fun _ _ hwf hd => adc_takesSum hwf hd⟩

/-- Settles O22: the adder on the complement is the difference. -/
theorem sbcSubtractsWithBorrow : Obligations.SbcSubtractsWithBorrow :=
  ⟨encodes_of_modes (m := .SBC) rfl (by decide), fun _ _ hwf hd => sbc_takesSum hwf hd⟩

/-! ## The decimal refusal -/

theorem exec_of_decimalRefused {i : Instr} {s : State} (hi : i.mnemonic = .ADC ∨ i.mnemonic = .SBC)
    (hd : decimalRefused s = true) : exec i s = .refused (.decimalMode (opcodeAddr s)) := by
  cases i with
  | adc | sbc => exact if_pos hd
  | _ => exact hi.elim nofun nofun

/-- ADC and SBC are refused in decimal mode and for no other reason (44_arithmetic.md R126). -/
theorem exec_eq_refused_iff {i : Instr} {s : State} {r : Refusal}
    (hi : i.mnemonic = .ADC ∨ i.mnemonic = .SBC) :
    exec i s = .refused r ↔
      s.config.decimalArith = .refuse ∧ s.flag .D = true ∧ r = .decimalMode (opcodeAddr s) := by
  rw [← and_assoc, ← decimalRefused_iff]
  constructor
  · intro h
    have hends := exec_ends i s
    rw [h] at hends
    cases hends with
    | refused _ hd => exact ⟨hd, rfl⟩
  · rintro ⟨hd, rfl⟩
    exact exec_of_decimalRefused hi hd

/-- A refused step ends a run in the state before it (40_engine.md R85; assumption 12). -/
theorem run_of_step_refused {s : State} {r : Refusal} (h : step s = .refused r) (fuel : Nat) :
    run (fuel + 1) s = (.refused r, s) := by
  simp only [run, h]

/-- Settles O23: the refusal is an equivalence, what is not refused completes, and a step hands the refusal on with
the address it fetched the opcode from. -/
theorem decimalModeRefusesOnlyWhenAsked : Obligations.DecimalModeRefusesOnlyWhenAsked := by
  refine ⟨fun o s r => ⟨exec_eq_refused_iff (.inl rfl), exec_eq_refused_iff (.inr rfl)⟩, ?binary, ?refused⟩
  case binary =>
    intro o s hbinary
    have hd : ¬ (s.config.decimalArith = .refuse ∧ s.flag .D = true) := by
      rintro ⟨hrefuse, hD⟩
      simp [hrefuse, hD] at hbinary
    constructor
    · intro hwf
      obtain ⟨v, hv, hsum⟩ := adc_takesSum hwf hd
      obtain ⟨t, ht⟩ := hsum.exists_next
      exact ⟨v, t, hv, ht⟩
    · intro hwf
      obtain ⟨v, hv, hsum⟩ := sbc_takesSum hwf hd
      obtain ⟨t, ht⟩ := hsum.exists_next
      exact ⟨v, t, hv, ht⟩
  case refused =>
    intro s i rest hrun hrefuse hD hdecode hi himplemented
    have hstep : step s = .refused (.decimalMode s.pc) := by
      rw [step_of_implemented hrun hdecode himplemented, exec_eq_refused_iff hi, opcodeAddr_fetched]
      exact ⟨hrefuse, hD, rfl⟩
    exact ⟨hstep, run_of_step_refused hstep⟩

end Sys2Proof.Machine
end

section
/-! PROOF. The compares, the increments and the decrements. -/

namespace Sys2Proof.Machine

/-! ## Compares -/

/-- A compare sets C, Z and N and no other flag (44_arithmetic.md R129). -/
theorem flagsAfter_compareFlags (r m : Byte) (s : State) :
    FlagsAfter s (compareFlags r m s)
      [(.C, decide (m.toNat ≤ r.toNat)), (.Z, r == m), (.N, (r - m).msb)] := by
  intro f
  rw [compareFlags_flag]
  cases f <;> rfl

/-- A compare of a register `reg` with the operand's byte changes P and PC alone (44_arithmetic.md R129 to R132). -/
theorem compare_completesAs {i : Instr} {s : State} {reg : State → Byte}
    (hexec : exec i s = withOperand i.mnemonic i.operand (fun v t => compareFlags (reg t) v t) s)
    (hwf : i.wellFormed = true)
    (hmodes : .noAddressing ∉ i.mnemonic.modes ∧ .relative ∉ i.mnemonic.modes := by
      simp [Instr.mnemonic, Mnemonic.modes]) :
    ∃ v, OperandIs i.operand s v ∧ CompletesAs i s (s.setPc (nextPc i s))
      [(.C, decide (v.toNat ≤ (reg s).toNat)), (.Z, reg s == v), (.N, (reg s - v).msb)] :=
  completesAs_of_withOperand (r := fun _ => s) hexec (fun _ => rfl) (fun _ => rfl)
    (fun v => flagsAfter_compareFlags (reg s) v s) hwf hmodes

/-- Settles O24: one lemma about a compare, at the three registers. -/
theorem comparesWriteThreeFlagsAndNoRegister : Obligations.ComparesWriteThreeFlagsAndNoRegister :=
  ⟨encodes_of_modes (m := .CMP) rfl (by decide),
    encodes_of_modes (m := .CPX) rfl (by decide),
    encodes_of_modes (m := .CPY) rfl (by decide),
    fun _ _ => ⟨compare_completesAs (reg := State.a) rfl, compare_completesAs (reg := State.x) rfl,
      compare_completesAs (reg := State.y) rfl⟩⟩

/-! ## Increments and decrements -/

/-- One more modulo 256, as the statements write it (44_arithmetic.md R133 to R135). -/
theorem add_one_eq_ofNat (v : Byte) : v + 1 = BitVec.ofNat 8 (v.toNat + 1) := by bv_omega

/-- One less modulo 256, as the statements write it (44_arithmetic.md R136 to R138). -/
theorem sub_one_eq_ofNat (v : Byte) : v - 1 = BitVec.ofNat 8 (v.toNat + 255) := by bv_omega

/-- A read-modify-write that ends in `SetZN` of the byte `f v` it writes stores that byte, and Z and N follow it
(44_arithmetic.md R133, R136). -/
theorem modify_completesStoring {i : Instr} {s : State} {f : Byte → Byte}
    (hexec : exec i s = modifyMemory i.mnemonic i.operand f (fun v => setZN (f v)) s)
    (hwf : i.wellFormed = true)
    (haddr : Addressed i.mnemonic i.operand := by simp [Addressed, Instr.mnemonic, Mnemonic.modes]) :
    CompletesStoring i s f (fun v => zn (f v)) :=
  completesStoring_of_withAddress
    (u := fun ea => setZN (f (s.readByte ea)) (s.writeByte ea (f (s.readByte ea)))) hexec (fun _ => rfl)
    (fun _ => rfl) (fun _ => flagsAfter_setZN _ fun _ => rfl) hwf haddr

/-- Settles O25: one lemma about a read-modify-write, at `v + 1` and `v - 1`. -/
theorem incAndDecModifyOneByte : Obligations.IncAndDecModifyOneByte := by
  refine ⟨encodes_of_modes (m := .INC) rfl (by decide), encodes_of_modes (m := .DEC) rfl (by decide),
    fun o s => ?_⟩
  simp only [← add_one_eq_ofNat, ← sub_one_eq_ofNat]
  exact ⟨modify_completesStoring rfl, modify_completesStoring rfl⟩

/-- Settles O26: each ends in `SetZN` of the byte it put in its register. -/
theorem indexIncrementsWrap : Obligations.IndexIncrementsWrap := by
  refine ⟨⟨encode_of_opcodeOf rfl, encode_of_opcodeOf rfl, encode_of_opcodeOf rfl, encode_of_opcodeOf rfl⟩,
    fun s => ?_⟩
  simp only [← add_one_eq_ofNat, ← sub_one_eq_ofNat]
  exact ⟨completesAs_of_setZN (r := s.setX (s.x + 1)) rfl rfl rfl,
    completesAs_of_setZN (r := s.setY (s.y + 1)) rfl rfl rfl,
    completesAs_of_setZN (r := s.setX (s.x - 1)) rfl rfl rfl,
    completesAs_of_setZN (r := s.setY (s.y - 1)) rfl rfl rfl⟩

end Sys2Proof.Machine
end

section
/-! PROOF. Logic, the bit test, the shifts and the rotates. -/

namespace Sys2Proof.Machine

/-! ## Logic and the bit test -/

/-- A logic instruction sets A to `f` of A and the operand's byte, and Z and N from it (45_logic_shift.md R139 to
R141). -/
theorem logic_completesAs {i : Instr} {s : State} {f : Byte → Byte → Byte}
    (hexec : exec i s = withOperand i.mnemonic i.operand (fun v t => setZN (f t.a v) (t.setA (f t.a v))) s)
    (hwf : i.wellFormed = true)
    (hmodes : .noAddressing ∉ i.mnemonic.modes ∧ .relative ∉ i.mnemonic.modes := by
      simp [Instr.mnemonic, Mnemonic.modes]) :
    ∃ v, OperandIs i.operand s v ∧
      CompletesAs i s ((s.setA (f s.a v)).setPc (nextPc i s)) (zn (f s.a v)) :=
  completesAs_of_withOperand (r := fun v => s.setA (f s.a v)) hexec (fun _ => rfl) (fun _ => rfl)
    (fun v => flagsAfter_setZN (f s.a v) fun _ => rfl) hwf hmodes

/-- BIT sets Z, N and V and no other flag (45_logic_shift.md R142). -/
theorem flagsAfter_bitFlags (m : Byte) (s : State) :
    FlagsAfter s (bitFlags m s) [(.Z, (s.a &&& m) == 0), (.N, m.getLsbD 7), (.V, m.getLsbD 6)] := by
  intro f
  rw [bitFlags_flag]
  cases f <;> rfl

/-- Settles O27: one lemma about a logic instruction, at the three operations. -/
theorem logicCombinesAWithTheOperand : Obligations.LogicCombinesAWithTheOperand :=
  ⟨encodes_of_modes (m := .AND) rfl (by decide),
    encodes_of_modes (m := .ORA) rfl (by decide),
    encodes_of_modes (m := .EOR) rfl (by decide),
    fun _ _ => ⟨logic_completesAs (f := (· &&& ·)) rfl, logic_completesAs (f := (· ||| ·)) rfl,
      logic_completesAs (f := (· ^^^ ·)) rfl⟩⟩

/-- Settles O28: BIT reads its operand and changes P and PC alone. -/
theorem bitTestsWithoutWritingA : Obligations.BitTestsWithoutWritingA :=
  ⟨encodes_of_modes (m := .BIT) rfl (by decide),
    fun _ s => completesAs_of_withOperand (r := fun _ => s) rfl (fun _ => rfl) (fun _ => rfl)
      (fun v => flagsAfter_bitFlags v s)⟩

/-! ## The shifts and rotates as numbers -/

section
variable (v : Byte)

theorem getLsbD_seven_eq_decide : v.getLsbD 7 = decide (128 ≤ v.toNat) := BitVec.msb_eq_decide v

theorem getLsbD_zero_eq_decide : v.getLsbD 0 = decide (v.toNat % 2 = 1) := Nat.testBit_zero v.toNat

/-- Bit 0 of a byte moved left is free, so the carry that enters there is added. -/
theorem shiftLeft_or_carry (cin : Bool) :
    v <<< 1 ||| (if cin then (0x01 : Byte) else 0x00) = v <<< 1 + BitVec.ofNat 8 cin.toNat := by
  cases cin with
  | false => exact BitVec.or_zero.trans (BitVec.add_zero _).symm
  | true => exact (BitVec.shiftLeft_add_eq_shiftLeft_or (x := 1)).symm

/-- Bit 7 of a byte moved right is free, so the carry that enters there is added. -/
theorem ushiftRight_or_carry (cin : Bool) :
    v >>> 1 ||| (if cin then (0x80 : Byte) else 0x00) = v >>> 1 + BitVec.ofNat 8 (128 * cin.toNat) := by
  cases cin with
  | false => exact BitVec.or_zero.trans (BitVec.add_zero _).symm
  | true =>
    have hfree : v >>> 1 &&& (0x80 : Byte) = 0 := (BitVec.and_twoPow _ 7).trans (if_neg (by simp))
    exact (BitVec.add_eq_or_of_and_eq_zero _ _ hfree).symm

/-- The byte doubles, with the old carry as its new bit 0, and bit 7 leaves (45_logic_shift.md R145). -/
theorem rotateLeft_eq (cin : Bool) :
    rotateLeft cin v = ⟨BitVec.ofNat 8 (2 * v.toNat + cin.toNat), decide (128 ≤ v.toNat)⟩ := by
  rw [rotateLeft, getLsbD_seven_eq_decide, shiftLeft_or_carry]
  congr 1
  bv_omega

/-- The byte halves, with the old carry as its new bit 7, and bit 0 leaves (45_logic_shift.md R146). -/
theorem rotateRight_eq (cin : Bool) :
    rotateRight cin v =
      ⟨BitVec.ofNat 8 (v.toNat / 2 + 128 * cin.toNat), decide (v.toNat % 2 = 1)⟩ := by
  rw [rotateRight, getLsbD_zero_eq_decide, ushiftRight_or_carry]
  congr 1
  bv_omega

/-- A shift left is a rotate left with the carry clear (45_logic_shift.md R143, R145). -/
theorem shiftLeft_eq : shiftLeft v = ⟨BitVec.ofNat 8 (2 * v.toNat), decide (128 ≤ v.toNat)⟩ := by
  have hrotate : shiftLeft v = rotateLeft false v := congrArg (Shifted.mk · _) BitVec.or_zero.symm
  exact hrotate.trans (rotateLeft_eq v false)

/-- A shift right is a rotate right with the carry clear (45_logic_shift.md R144, R146). -/
theorem shiftRight_eq : shiftRight v = ⟨BitVec.ofNat 8 (v.toNat / 2), decide (v.toNat % 2 = 1)⟩ := by
  have hrotate : shiftRight v = rotateRight false v := congrArg (Shifted.mk · _) BitVec.or_zero.symm
  exact hrotate.trans (rotateRight_eq v false)

end

/-! ## The shifts and rotates as instructions -/

/-- A shift or rotate sets C, Z and N and no other flag (45_logic_shift.md R143 to R146). -/
theorem flagsAfter_shiftFlags {s u : State} (r : Shifted) (h : ∀ f, u.flag f = s.flag f) :
    FlagsAfter s (shiftFlags r u) ([(.C, r.carry)] ++ zn r.result) := by
  intro f
  rw [shiftFlags_flag, h]
  cases f <;> rfl

/-- Where its operand is not the accumulator, a shift or rotate is a read-modify-write (30_encoding.md R69). -/
theorem shiftOperand_eq_modifyMemory {o : Operand} (ho : o ≠ .noAddressing) (m : Mnemonic) (f : Byte → Shifted)
    (s : State) :
    shiftOperand m o f s = modifyMemory m o (fun v => (f v).result) (fun v => shiftFlags (f v)) s := by
  cases o with
  | noAddressing => exact absurd rfl ho
  | _ => rfl

section
variable {i : Instr} {s : State} {f : Byte → Shifted} {r : Byte → Byte} {c : Byte → Bool}

/-- The accumulator form writes the result `r` to A, and C, Z and N follow. -/
theorem shift_completesAs (hexec : exec i s = shiftOperand i.mnemonic i.operand f s)
    (hf : ∀ v, f v = ⟨r v, c v⟩) (ho : i.operand = .noAddressing) :
    CompletesAs i s ((s.setA (r s.a)).setPc (nextPc i s)) ([(.C, c s.a)] ++ zn (r s.a)) := by
  obtain rfl := funext hf
  have hcomplete : exec i s = complete i.mode (shiftFlags ⟨r s.a, c s.a⟩ (s.setA (r s.a))) := by
    rw [hexec, Instr.mode, ho]
    rfl
  exact completesAs_of_complete (r := s.setA (r s.a)) hcomplete rfl rfl
    (flagsAfter_shiftFlags _ fun _ => rfl)

/-- The memory forms store the result `r` of the byte at the operand's address, and C, Z and N follow. -/
theorem shift_completesStoring (hexec : exec i s = shiftOperand i.mnemonic i.operand f s)
    (hf : ∀ v, f v = ⟨r v, c v⟩) (hwf : i.wellFormed = true) (ho : i.operand ≠ .noAddressing)
    (hmodes : .relative ∉ i.mnemonic.modes ∧ .immediate ∉ i.mnemonic.modes := by
      simp [Instr.mnemonic, Mnemonic.modes]) :
    CompletesStoring i s r (fun v => [(.C, c v)] ++ zn (r v)) := by
  obtain rfl := funext hf
  have hmode : i.operand.mode ≠ .noAddressing := by
    cases h : i.operand with
    | noAddressing => exact absurd h ho
    | _ => simp [Operand.mode]
  exact completesStoring_of_withAddress
    (u := fun ea => shiftFlags ⟨r (s.readByte ea), c (s.readByte ea)⟩ (s.writeByte ea (r (s.readByte ea))))
    (hexec.trans (shiftOperand_eq_modifyMemory ho _ _ s)) (fun _ => rfl) (fun _ => rfl)
    (fun _ => flagsAfter_shiftFlags _ fun _ => rfl) hwf ⟨fun _ => hmode, hmodes⟩

end

/-- Settles O29: one lemma about each form of a shift, at the two shifts as numbers. -/
theorem shiftsMoveTheOuterBitIntoCarry : Obligations.ShiftsMoveTheOuterBitIntoCarry :=
  ⟨encodes_of_modes (m := .ASL) rfl (by decide),
    encodes_of_modes (m := .LSR) rfl (by decide),
    fun _ _ => ⟨shift_completesAs rfl shiftLeft_eq rfl, shift_completesAs rfl shiftRight_eq rfl,
      shift_completesStoring rfl shiftLeft_eq, shift_completesStoring rfl shiftRight_eq⟩⟩

/-- Settles O30: the same two lemmas, at the two rotates as numbers with the old carry in. -/
theorem rotatesGoThroughCarry : Obligations.RotatesGoThroughCarry :=
  ⟨encodes_of_modes (m := .ROL) rfl (by decide),
    encodes_of_modes (m := .ROR) rfl (by decide),
    fun _ s =>
      have hleft (v : Byte) := rotateLeft_eq v (s.flag .C)
      have hright (v : Byte) := rotateRight_eq v (s.flag .C)
      ⟨shift_completesAs rfl hleft rfl, shift_completesAs rfl hright rfl,
        shift_completesStoring rfl hleft, shift_completesStoring rfl hright⟩⟩

end Sys2Proof.Machine
end

section
/-! PROOF. The branches, the jumps, the call, and the returns: a return undoes the call. -/

namespace Sys2Proof.Machine

/-! ## Branches and jumps -/

/-- On entry to a handler PC is one past the opcode (40_engine.md R74). -/
theorem opcodeAddr_add_two (s : State) : opcodeAddr s + 2 = s.pc + 1 := by
  unfold opcodeAddr
  bv_omega

/-- A branch whose condition says that flag `f` is `b` moves PC alone (46_control_transfer.md R147). -/
theorem branch_eq_next {cond : Bool} {s : State} {f : Flag} {b : Bool} (hcond : cond = true ↔ s.flag f = b)
    (off : Byte) : branch cond off s = .next
      { s with pc := if s.flag f = b then BitVec.ofInt 16 (s.pc.toNat + 1 + off.toInt)
                     else opcodeAddr s + 2 } := by
  rw [← relativeTarget_eq_ofInt, opcodeAddr_add_two]
  simp only [← hcond]
  cases cond <;> rfl

/-- Settles O31: one lemma about a branch, at the two conditions on each of the four flags. -/
theorem branchesRedirectWhenTheirFlagAgrees : Obligations.BranchesRedirectWhenTheirFlagAgrees := by
  intro off s
  have hclear (f : Flag) := branch_eq_next (s := s) (f := f) (Bool.not_eq_true' _).to_iff off
  have hset (f : Flag) := branch_eq_next (s := s) (f := f) .rfl off
  exact ⟨⟨encode_of_opcodeOf rfl, hclear .N⟩, ⟨encode_of_opcodeOf rfl, hset .N⟩,
    ⟨encode_of_opcodeOf rfl, hclear .V⟩, ⟨encode_of_opcodeOf rfl, hset .V⟩,
    ⟨encode_of_opcodeOf rfl, hclear .C⟩, ⟨encode_of_opcodeOf rfl, hset .C⟩,
    ⟨encode_of_opcodeOf rfl, hclear .Z⟩, ⟨encode_of_opcodeOf rfl, hset .Z⟩⟩

/-- Settles O32: each mode of JMP has an address, and the handler redirects to it. -/
theorem jmpSetsPcToTheAddress : Obligations.JmpSetsPcToTheAddress := by
  refine ⟨encodes_of_modes (m := .JMP) rfl (by decide), fun o s hwf => ?_⟩
  have haddr : Addressed .JMP o := by simp [Addressed, Mnemonic.modes]
  obtain ⟨ea, hea⟩ := haddr.effectiveAddr_isSome s hwf
  exact ⟨ea, effectiveAddr_eq_some.mp hea, withAddress_eq hwf hea⟩

/-! ## Two pushes -/

/-- The stack byte below the one S designates, as the statements write it (41_addressing.md R105). -/
theorem stackAddr_sub_one (sp : Byte) : stackAddr (sp - 1) = stackCell (sp.toNat + 255) := by
  rw [← stackAddr_add_ofNat, BitVec.sub_eq_add_neg]
  rfl

/-- The second push does not reach the byte of the first, at S = 0 too (46_control_transfer.md R157). -/
theorem push_push_readByte_first {s : State} (hs : s.Canonical) (h l : Byte) :
    (push l (push h s)).readByte (stackAddr s.sp) = h := by
  have hne : s.sp ≠ s.sp - 1 := by bv_omega
  exact (push_readByte_other (push h s) l (hne ∘ stackAddr_inj)).trans (push_readByte_self hs h)

/-- A word pulled is the word pushed high byte first: the pulls look at S and the memory alone
(46_control_transfer.md R157, R158). -/
theorem pulledWord_after_pushes {s r : State} (hs : s.Canonical) {w : Word}
    (hmem : r.mem = (push (lo w) (push (hi w) s)).mem) (hsp : r.sp = s.sp - 1 - 1) : pulledWord r = w := by
  have hlow : pulled r = lo w := pulled_after_push (push_wf hs (hi w)) hmem hsp
  have hhigh : pulled (dropPulled r) = hi w := by
    rw [pulled, dropPulled_sp, hsp, BitVec.sub_add_cancel, BitVec.sub_add_cancel]
    exact (State.readByte_congr hmem _).trans (push_push_readByte_first hs (hi w) (lo w))
  rw [pulledWord, hlow, hhigh, word_hi_lo]

/-! ## The call and the returns -/

/-- Settles O33: JSR pushes the two bytes of the address of its last byte. -/
theorem jsrPushesTheReturnAddressAndJumps : Obligations.JsrPushesTheReturnAddressAndJumps := by
  intro target s
  rw [opcodeAddr_add_two, ← stackAddr_eq_stackCell, ← stackAddr_sub_one]
  refine ⟨?encoding, _, rfl, ?state, fun hs => ⟨?high, ?low⟩, fun b hhigh hlow => ?other⟩
  case encoding =>
    rw [← hi_toNat, BitVec.ofNat_toNat, BitVec.ofNat_toNat, BitVec.setWidth_eq]
    exact encode_of_opcodeOf rfl
  case state =>
    have hsp : BitVec.ofNat 8 (s.sp.toNat + 254) = s.sp - 1 - 1 := by bv_omega
    rw [hsp]
    rfl
  case high =>
    rw [← hi_toNat]
    exact congrArg BitVec.toNat (push_push_readByte_first hs _ _)
  case low =>
    rw [← lo_toNat]
    exact congrArg BitVec.toNat (push_readByte_self (push_wf hs _) _)
  case other => exact (push_readByte_other _ _ hlow).trans (push_readByte_other s _ hhigh)

/-- RTS pulls a word and changes S and PC alone (46_control_transfer.md R158). -/
theorem exec_rts (s : State) :
    exec .rts s = .next { s with sp := s.sp + 1 + 1, pc := pulledWord s + 1 } := rfl

/-- RTI pulls P and a word and changes P, S and PC alone (46_control_transfer.md R159). -/
theorem exec_rti (s : State) :
    exec .rti s = .next { s with p := (pullStatus s).p, sp := s.sp + 1 + 1 + 1,
                                 pc := pulledWord (pullStatus s) } := rfl

/-- Settles O34: the word comes from the two stack bytes above those pulled before it. -/
theorem returnsPullTheProgramCounter : Obligations.ReturnsPullTheProgramCounter := by
  refine ⟨⟨encode_of_opcodeOf rfl, encode_of_opcodeOf rfl⟩, fun s => ⟨?rts, ?rti⟩⟩
  case rts =>
    have hsp : s.sp + 1 + 1 = BitVec.ofNat 8 (s.sp.toNat + 2) := by bv_omega
    have hsucc (n : Nat) : BitVec.ofNat 16 n + 1 = BitVec.ofNat 16 (n + 1) := (BitVec.ofNat_add n 1).symm
    rw [exec_rts, hsp, pulledWord_eq_ofNat 0 rfl (BitVec.add_zero s.sp).symm, hsucc]
  case rti =>
    have hsp : s.sp + 1 + 1 + 1 = BitVec.ofNat 8 (s.sp.toNat + 3) := by bv_omega
    rw [exec_rti, hsp, pullStatus_p_eq, pulledWord_eq_ofNat (s := s) (t := pullStatus s) 1 rfl rfl]

/-- Settles O35: RTS pulls the word JSR pushed, and adds 1. -/
theorem rtsAfterJsrReturnsToTheNextInstruction : Obligations.RtsAfterJsrReturnsToTheNextInstruction := by
  intro target pc s t hs h
  obtain rfl := redirect_eq_next.mp h
  have hpc : s.pc + 1 + 1 = nextPc (.jsr target) s :=
    (BitVec.add_assoc s.pc 1 1).trans (skipOperands_pc_eq_nextPc (i := .jsr target) rfl)
  have hword : pulledWord ((push (lo (s.pc + 1)) (push (hi (s.pc + 1)) s)).setPc pc) = s.pc + 1 :=
    pulledWord_after_pushes hs rfl rfl
  change exec .rts ((push (lo (s.pc + 1)) (push (hi (s.pc + 1)) s)).setPc pc) = _
  rw [exec_rts, hword, hpc]
  simp

end Sys2Proof.Machine
end

section
/-! PROOF. The flag controls and NOP, the halts of a step, and the reset after a load. -/

namespace Sys2Proof.Machine

/-! ## Flag control and NOP -/

/-- `setFlag` writes its one flag (10_state.md R22). -/
theorem flagsAfter_setFlag (s : State) (f : Flag) (b : Bool) : FlagsAfter s (s.setFlag f b) [(f, b)] := by
  intro g
  rw [State.setFlag_flag]
  by_cases hg : g = f
  · simp [hg]
  · have hlookup : [(f, b)].lookup g = none := by simp [hg]
    rw [if_neg hg, hlookup]
    rfl

/-- A handler that ends in the operand skip after writing one flag changes that flag and PC alone
(47_flags_misc.md R160 to R166). -/
theorem setFlag_completesAs {i : Instr} {s : State} {f : Flag} {b : Bool}
    (hexec : exec i s = complete i.mode (s.setFlag f b)) :
    CompletesAs i s { s with pc := nextPc i s } [(f, b)] :=
  completesAs_of_complete (r := s) hexec rfl rfl (flagsAfter_setFlag s f b)

/-- Settles O36: one lemma about a handler that writes one flag, at the seven of them. -/
theorem flagControlWritesOneFlag : Obligations.FlagControlWritesOneFlag :=
  ⟨⟨encode_of_opcodeOf rfl, encode_of_opcodeOf rfl, encode_of_opcodeOf rfl, encode_of_opcodeOf rfl,
      encode_of_opcodeOf rfl, encode_of_opcodeOf rfl, encode_of_opcodeOf rfl⟩,
    fun _ => ⟨setFlag_completesAs rfl, setFlag_completesAs rfl, setFlag_completesAs rfl,
      setFlag_completesAs rfl, setFlag_completesAs rfl, setFlag_completesAs rfl, setFlag_completesAs rfl⟩⟩

/-- Settles O37: the handler is the operand skip alone. -/
theorem nopOnlyAdvances : Obligations.NopOnlyAdvances := by
  refine ⟨encode_of_opcodeOf rfl, fun s => ?_⟩
  rw [← skipOperands_pc_eq_nextPc (i := .nop) (u := s) rfl]
  rfl

/-! ## The halts of a step -/

/-- Settles O43: a step that does not stay Running only raises a halt after the fetch. -/
theorem haltsArePrecise : Obligations.HaltsArePrecise := by
  intro s t r h hhalt
  obtain ⟨hrun, -⟩ | ⟨reason, haddr, rfl⟩ := step_running_or_halts h
  · exact nomatch hrun.symm.trans hhalt
  · obtain rfl : reason = r := RunState.halted.inj hhalt
    exact ⟨rfl, haddr⟩

/-! ## Reset after load -/

/-- `load` sets the reset vector, whatever bytes it copies (20_memory.md R52). -/
theorem load_resetVector {bytes : List Byte} {s t : State} (hs : s.Canonical) (h : s.load bytes = some t) :
    t.readU16 0xFFFC = 0x8000 := by
  have hlen : bytes.length ≤ 0x8000 := by
    by_contra hlt
    rw [load_of_lt s (Nat.lt_of_not_le hlt)] at h
    exact nomatch h
  obtain rfl := Option.some.inj ((load_of_le s hlen).symm.trans h)
  exact Memory.readU16_writeU16_self (Memory.wf_writeBytes hs 0x8000 bytes) 0xFFFC 0x8000

/-- Settles O58: reset takes PC from the vector and keeps the memory, and the program does not reach the
vector. -/
theorem resetAfterLoadStartsAtTheProgram : Obligations.ResetAfterLoadStartsAtTheProgram := by
  intro program s t hs hlen h
  obtain ⟨u, hu, -, hcopied, -⟩ := (loadCopiesTheProgramAndSetsTheVector program s).2 (by omega)
  obtain rfl := Option.some.inj (hu.symm.trans h)
  obtain ⟨-, -, -, hbytes⟩ := hcopied hs
  exact ⟨load_resetVector hs h, rfl, fun k hk => hbytes k hk (by omega) (by omega)⟩

end Sys2Proof.Machine
end
